-- ==== Sys2Proof/Word.lean ====
section
/-!
DEFINITION. The fixed widths of the block: data and registers are 32 bits (R20, R75), a command word is 40 bits
(R70), a segment pattern is one byte (R84), the LED register ten bits (R23), the latched flags three (R30).
-/
namespace Sys2Proof

/-- A 32-bit register, operand, port value or display word (R20, R75). -/
abbrev Word := BitVec 32

/-- One digit's segment pattern (R84). -/
abbrev Byte := BitVec 8

/-- A command word, `CMD[39:0]` (R70). -/
abbrev CmdWord := BitVec 40

/-- The LED register and bus, ten bits (R23). -/
abbrev LedWord := BitVec 10

/-- A flags nibble without its reserved top bit: bit 0 UNIT, bit 1 LE, bit 2 DP (R30, R73). -/
abbrev Flags := BitVec 3

end Sys2Proof
end

