-- ==== Sys2Proof/Config.lean ====
section
/-!
DEFINITION. What is fixed for a build of the block (the parameters of R6), the input lines of one tick
(R32 to R35, R220), the open parameters of the reference host, and the free values: what the environment and the
host choose under no law. The VALUES of the block's parameters stand in Sys2Proof/Machine/Params.lean.
-/
namespace Sys2Proof

/-- The block's build parameters (R6). The widths `W_TICK`, `W_LED`, `W_CMD` are the widths of the types in
Word.lean; they stand here so that a configuration names them and `Params.wf` holds them to the types. -/
structure Params where
  ticksPerSecond : Nat
  quietTicks : Nat
  trigTicks : Nat
  kNum : Nat
  kDen : Nat
  dpDiv : Nat
  mDiv : Nat
  ovfThreshold : Nat
  bandUnit : Nat
  ledBand9 : Nat
  /-- the ten digit patterns, entry `d` the pattern of digit `d` (R85; held in the configuration as G1 asks) -/
  digits : List Byte
  labelSeconds : Nat
  valueSeconds : Nat
  wTick : Nat
  wLed : Nat
  wCmd : Nat
deriving DecidableEq, Repr

/-- The relations between parameters that the rules rely on (R7), with the configurations the spec refuses
(93_implementation_defined.md U8, U11) refused here. -/
def Params.wf (c : Params) : Bool :=
  decide (0 < c.ticksPerSecond) && decide (0 < c.kNum) && decide (0 < c.kDen) && decide (0 < c.dpDiv) &&
  decide (0 < c.mDiv) && decide (0 < c.bandUnit) && decide (0 < c.ovfThreshold) &&
  decide (c.ovfThreshold = 10 * c.bandUnit) &&
  decide (c.ticksPerSecond * c.labelSeconds < 2 ^ c.wTick) &&
  decide (c.ticksPerSecond * c.valueSeconds < 2 ^ c.wTick) &&
  decide (9 ≤ c.wLed) && decide (c.ledBand9 < 2 ^ c.wLed) && decide (c.digits.length = 10) &&
  decide (c.wTick = 32) && decide (c.wLed = 10) && decide (c.wCmd = 40)

/-- The levels of every input line in one tick: reset (R220), the command port (R35), the buttons (R32), the
switches (R33) and the sensor's echo (R34). They are chosen by the host and the environment, not by the block. -/
structure Lines where
  rst : Bool
  cmdValid : Bool
  cmd : CmdWord
  btn : BitVec 2
  sw : BitVec 10
  echo : Bool
deriving DecidableEq, Repr, Inhabited

/-- The shape of the host's extrema update, open in the spec (R6 `EXTREMA_POLICY`, R183, D30). -/
inductive ExtremaPolicy where
  | twoIfs
  | elseIf
deriving DecidableEq, Repr

/-- The open parameters of the reference host (R6, D16, D30, D31): arguments of its step, never chosen. -/
structure HostParams where
  pressedLevel : Bool
  policy : ExtremaPolicy
  lowInit : Word
deriving DecidableEq, Repr

/-- The initial Lowest is not below the overflow threshold, so every qualifying capture is less than it; a
configuration with a lower one is refused (93_implementation_defined.md U13, D31). -/
def HostParams.wf (c : Params) (p : HostParams) : Bool := decide (c.ovfThreshold ≤ p.lowInit.toNat)

/-- The free levels of the input lines: the environment's `n`-th draw. No body: nothing constrains it (R8, R45,
93_implementation_defined.md U3, U4; log entry 2). -/
opaque Config.freeLines : Nat → Lines

/-- The free number of ticks the host computes before its next command (R175, R240; log entry 16). -/
opaque Config.freeGap : Nat → Nat

/-- Whether the host's `n`-th pass through Idle reads the buttons before the switches: R178 leaves the order
open (log entry 16). -/
opaque Config.freeButtonsFirst : Nat → Bool

end Sys2Proof
end

