-- ==== Sys2Proof/Syntax.lean ====
section
/-!
DEFINITION. The commands of the block, one constructor per row of the opcode table, and the causes for which a
command is rejected. A field the operation ignores (R79) is kept as an operand `x`, so that no bit of a legal word
is dropped between decoder and encoder.
-/
namespace Sys2Proof

/-- The causes of event E4, a rejected command, under R205's names. The hardware reports only that there was one. -/
inductive CommandError where
  | reservedOpcode
  | reservedModifier
  | reservedPort
  | badOutPort
  | badLiteralIndex
  | delayTooLong
deriving DecidableEq, Repr

/-- The operations (R72), IN and OUT one constructor for each port they may name (R51, R74). -/
inductive Instr where
  /-- ENC a (R101): the pattern of digit `a` -/
  | enc (a : Word)
  /-- CMP f, a (R104): the display word of `a` -/
  | cmp (f : Flags) (a : Word)
  /-- LIT a (R107): literal display word number `a` -/
  | lit (a : Word)
  /-- CONV f, a (R125): the distance of a pulse of `a` ticks -/
  | conv (f : Flags) (a : Word)
  /-- MEAS f (R127): a whole measurement; the argument is ignored -/
  | meas (f : Flags) (x : Word)
  /-- DLY a (R166): a delay of `a` seconds -/
  | dly (a : Word)
  /-- IN TICK (R151) -/
  | inTick (x : Word)
  /-- IN BTN (R152) -/
  | inBtn (x : Word)
  /-- IN SW (R153) -/
  | inSw (x : Word)
  /-- IN ECHO (R154) -/
  | inEcho (x : Word)
  /-- IN TRIG (R155) -/
  | inTrig (x : Word)
  /-- IN LED (R156) -/
  | inLed (x : Word)
  /-- IN HEX (R157) -/
  | inHex (x : Word)
  /-- IN PULSE (R158) -/
  | inPulse (x : Word)
  /-- IN DIST (R159) -/
  | inDist (x : Word)
  /-- IN STATUS (R160) -/
  | inStatus (x : Word)
  /-- OUT TRIG, a (R163) -/
  | outTrig (a : Word)
  /-- OUT LED, a (R164) -/
  | outLed (a : Word)
  /-- OUT HEX, a (R165) -/
  | outHex (a : Word)
deriving DecidableEq, Repr

end Sys2Proof
end

