-- ==== Sys2Proof/Machine/State.lean ====
section
/-!
DEFINITION. The state of the block: the fourteen registers of R20, and three fields of the model's own that hold
what R20 makes arguments of a step (the levels of the input lines, now and in the ticks to come; log entry 1).
-/
namespace Sys2Proof.Machine

/-- The sequencer's state (R28). The codes 6 and 7 are never taken. -/
inductive Phase where
  | ready
  | quiet
  | trigger
  | waitRise
  | measure
  | delay
deriving DecidableEq, Repr

/-- What one tick of the machine reads and writes. -/
structure State where
  /-- TICK, the free-running tick counter (R21) -/
  tick : Word
  /-- TRIG, the sensor's trigger line, true = high (R22) -/
  trig : Bool
  /-- LED, the bar of ten LEDs, 1 = lit (R23) -/
  led : LedWord
  /-- HEX, the display word on the pins (R24) -/
  hex : Word
  /-- PULSE, the last raw pulse width in ticks (R25) -/
  pulse : Word
  /-- DIST, the last distance (R26) -/
  dist : Word
  /-- OVF, the overflow-reading flag (R27) -/
  ovf : Bool
  /-- CERR, the sticky command-error flag (R27) -/
  cerr : Bool
  /-- PHASE, the sequencer's state (R28) -/
  phase : Phase
  /-- T0, the sample of TICK a wait is measured from (R29) -/
  t0 : Word
  /-- F, the flags latched by MEAS (R30) -/
  f : Flags
  /-- NT, the length of the delay in progress (R31) -/
  nt : Word
  /-- RSPV, response valid (R35) -/
  rspv : Bool
  /-- RSPD, the response, err in bit 32 and data in bits 31:0 (R35, R76) -/
  rspd : BitVec 33
  /-- the model's own: the levels of the input lines in this tick (R13, R32 to R35, R220; log entry 1) -/
  lines : Lines
  /-- the model's own: the levels of the ticks to come, the next tick's first (log entry 1) -/
  coming : List Lines
  /-- the model's own: how many ticks' levels have been taken from `Config.freeLines` (log entry 2) -/
  draws : Nat
deriving DecidableEq, Repr

/-- Why the machine would stop with a fault. It has no constructor: the block has no trap and no fault (R200,
R209), a rejected command is an ordinary next state (R206) and a hang is an endless run of next states (R203).
Safe: nothing stops. -/
inductive Fault where
deriving DecidableEq, Repr

/-- Why the model would give a step no meaning. -/
inductive Refusal where
  /-- raised by `exec` alone, for a row of the opcode table that has no meaning yet. Every row has one, so no arm
  raises it. Safe. -/
  | notModelled (mnemonic : String)
deriving DecidableEq, Repr

/-- The machine in the first tick after reset: every register at its value of R43. The input lines have no reset
value, in the first tick either (R45, 93_implementation_defined.md U3, U4): their levels are the environment's first
draw, and nothing is scheduled (log entry 3). -/
def State.reset : State where
  tick := 0#32
  trig := false
  led := 0#10
  hex := 0xFFFFFFFF#32
  pulse := 0#32
  dist := 0#32
  ovf := false
  cerr := false
  phase := .ready
  t0 := 0#32
  f := 0#3
  nt := 0#32
  rspv := false
  rspd := 0#33
  lines := Config.freeLines 0
  coming := []
  draws := 1

end Sys2Proof.Machine
end

