-- ==== Sys2Proof/Machine/Ops.lean ====
section
/-!
DEFINITION. The operations every rule shares: responding (R35, R76), rejecting a command (R206, the block's only
exceptional event with an effect of its own, event E4), the difference of two samples of TICK (R170), what the tick
counter and the environment do in every tick (R8, R21), reset (R220), and the output pins (R22 to R24, R35). There is
no trap to take and none to return from (R200, R209, R210).
-/
namespace Sys2Proof.Machine

/-- `zext_32` (R11): the only extension the block has. -/
def zext32 {n : Nat} (v : BitVec n) : Word := v.setWidth 32

/-- `{err, data}` (R35, R76). -/
def responseWord (err : Bool) (data : Word) : BitVec 33 :=
  ((BitVec.ofBool err).setWidth 33 <<< 32) ||| data.setWidth 33

/-- `respond(err, data)` (R35). -/
def State.respond (s : State) (err : Bool) (data : Word) : State :=
  { s with rspv := true, rspd := responseWord err data }

/-- A tick in which no rule responds: `RSPV' <- 0`, RSPD keeps its value (R13, R35; log entry 14). -/
def State.noResponse (s : State) : State := { s with rspv := false }

/-- `raise CommandError(cause)`: CERR is set, the response is `{1, 0}`, nothing else changes (R206). The hardware
does not report the cause (R205). -/
def State.raiseCommandError (s : State) (_cause : CommandError) : State :=
  { s.respond true 0#32 with cerr := true }

/-- `(TICK − T0) mod 2^32` (R170). -/
def State.sinceT0 (s : State) : Word := s.tick - s.t0

/-- The tick counter's action (R21). -/
def State.countTick (s : State) : State := { s with tick := s.tick + 1#32 }

/-- The environment's action: the next tick's levels are the first scheduled ones, and free ones where nothing is
scheduled (R8, R13, R45; log entries 1 and 2). -/
def State.drawLines (s : State) : State :=
  { s with
    lines := s.coming.headD (Config.freeLines s.draws)
    coming := s.coming.tail
    draws := if s.coming.isEmpty then s.draws + 1 else s.draws }

/-- What ends every tick but a reset tick, whatever the sequencer did in it (R8). -/
def State.advance (s : State) : State := s.countTick.drawLines

/-- Every register at its reset value (R43). -/
def State.resetRegisters (s : State) : State :=
  { s with
    tick := 0#32, trig := false, led := 0#10, hex := 0xFFFFFFFF#32, pulse := 0#32, dist := 0#32
    ovf := false, cerr := false, phase := .ready, t0 := 0#32, f := 0#3, nt := 0#32
    rspv := false, rspd := 0#33 }

/-- A tick with `RST = 1`: reset overrides everything, the tick counter included (R220). -/
def State.resetTick (s : State) : State := s.resetRegisters.drawLines

/-- The levels of the input lines `k` ticks from now: this tick's, then the scheduled ones, then free ones. -/
def State.linesAt (s : State) : Nat → Lines
  | 0 => s.lines
  | k + 1 => s.coming.getD k (Config.freeLines (s.draws + (k - s.coming.length)))

/-- The host presents a command word this tick (R35): `CMD_VALID = 1`, `CMD = w`, reset inactive, the block ready to
accept it. -/
def State.present (s : State) (w : CmdWord) : State :=
  { s with phase := .ready, lines := { s.lines with rst := false, cmdValid := true, cmd := w } }

/-- The code of a phase (R28); not observable. -/
def phaseCode : Phase → BitVec 3
  | .ready => 0#3
  | .quiet => 1#3
  | .trigger => 2#3
  | .waitRise => 3#3
  | .measure => 4#3
  | .delay => 5#3

/-- The CMD_READY pin (R35); it reads 0 while reset is high (R220). -/
def State.cmdReady (s : State) : Bool := decide (s.phase = .ready) && !s.lines.rst

/-- The TRIG pin (R22). -/
def State.trigPin (s : State) : Bool := s.trig

/-- The LED pins (R23). -/
def State.ledPins (s : State) : LedWord := s.led

/-- The HEX pins (R24). -/
def State.hexPins (s : State) : Word := s.hex

/-- The RSP_VALID pin (R35). -/
def State.rspValid (s : State) : Bool := s.rspv

/-- The RSP_ERR pin, `RSPD[32]` (R35). -/
def State.rspErr (s : State) : Bool := s.rspd.getLsbD 32

/-- The RSP pins, `RSPD[31:0]` (R35). -/
def State.rspData (s : State) : Word := s.rspd.extractLsb' 0 32

end Sys2Proof.Machine
end

