-- ==== Sys2Proof/Machine/Operands.lean ====
section
/-!
DEFINITION. How operands are read: the three flags of a nibble (R73), the bits an OUT keeps of its argument (R75,
R79), the digits of a number (R102).
-/
namespace Sys2Proof.Machine

/-- UNIT, bit 0: false = centimeters, true = meters (R73). -/
def flagUnit (f : Flags) : Bool := f.getLsbD 0

/-- LE, bit 1: LED feedback enabled (R73). -/
def flagLe (f : Flags) : Bool := f.getLsbD 1

/-- DP, bit 2: decimal-shift mode on (R73). -/
def flagDp (f : Flags) : Bool := f.getLsbD 2

/-- `a[0]`, what OUT 4 keeps (R163). -/
def trigBit (a : Word) : Bool := a.getLsbD 0

/-- `a[9:0]`, what OUT 5 keeps (R164). -/
def ledBits (a : Word) : LedWord := a.extractLsb' 0 10

/-- The decimal digit of `v` at the weight `w`, "via successive /10 %10" (R102). -/
def digitAt (v w : Nat) : Nat := v / w % 10

end Sys2Proof.Machine
end

