-- ==== Sys2Proof/Machine/Params.lean ====
section
/-!
DEFINITION. The values of the parameters this hardware takes (R6), its read-only table of literal display words
(R91, R107), and the two limits on arguments that follow from them (R75).
-/
namespace Sys2Proof.Machine

/-- The parameter values of this hardware (R6) with the digit patterns of R85 and R100. -/
def rfb : Params where
  ticksPerSecond := 50000000
  quietTicks := 50000
  trigTicks := 501
  kNum := 34029
  kDen := 1000000
  dpDiv := 10
  mDiv := 100
  ovfThreshold := 10000
  bandUnit := 1000
  ledBand9 := 0x3FF
  digits := [0xC0#8, 0xF9#8, 0xA4#8, 0xB0#8, 0x99#8, 0x92#8, 0x82#8, 0xF8#8, 0x80#8, 0x98#8]
  labelSeconds := 2
  valueSeconds := 3
  wTick := 32
  wLed := 10
  wCmd := 40

/-- The literal display words by index, "to be reproduced bit-exact" (R91): ERR, CM, M, SV1 to SV5, HI, LO and the
empty-slot sentinel. -/
def literalWords : List Word :=
  [0x86AF2FFF#32, 0xC606FFFF#32, 0x2BC606FF#32, 0x12F9FFFF#32, 0x12A4FFFF#32, 0x12B0FFFF#32, 0x1299FFFF#32,
   0x1292FFFF#32, 0x8B6FFFFF#32, 0xC740FFFF#32, 0xFFFFFFFF#32]

/-- LIT takes an index 0 to 10 (R75, R107). -/
def literalIndexLegal (a : Word) : Bool := decide (a.toNat ≤ 10)

/-- The length in ticks of a delay of `a` seconds, formed exactly (R140 f). -/
def delayTicks (c : Params) (a : Word) : Nat := c.ticksPerSecond * a.toNat

/-- DLY takes a delay that fits the tick counter (R75, R166). -/
def delayLegal (c : Params) (a : Word) : Bool := decide (delayTicks c a < 2 ^ 32)

end Sys2Proof.Machine
end

