-- ==== Sys2Proof/Machine/Display.lean ====
section
/-!
DEFINITION. The digit encoder, the display composer and the literal words: the functions `Encode`, `Digits`,
`Compose`, `Literal` (R100, R102, R103, R107), the reading of a display word as lit segments (R84), and the meanings
of ENC, CMP and LIT.
-/
namespace Sys2Proof.Machine

/-- `Encode(d)`: the table's pattern for 0 to 9, the pattern of "0" for every other number (R100). -/
def digitPattern (c : Params) (d : Nat) : Byte := c.digits.getD d 0xC0#8

/-- The decimal point: a pattern less 128, which clears its bit 7 (R87, R103). -/
def withPoint (b : Byte) : Byte := b - 128#8

/-- `Compose(v, dp)` (R103): four patterns, the thousands digit first, with the point on the thousands digit when
`dp` is off and on the hundreds digit when it is on. -/
def compose (c : Params) (v : Nat) (dp : Bool) : Word :=
  let b3 := digitPattern c (digitAt v 1000)
  let b2 := digitPattern c (digitAt v 100)
  let b1 := digitPattern c (digitAt v 10)
  let b0 := digitPattern c (digitAt v 1)
  (zext32 (if dp then b3 else withPoint b3) <<< 24) ||| (zext32 (if dp then withPoint b2 else b2) <<< 16) |||
    (zext32 b1 <<< 8) ||| zext32 b0

/-- `Literal(a)` (R107); the value outside the table is never used, since such an index is rejected first. -/
def literalWord (a : Word) : Word := literalWords.getD a.toNat 0#32

/-- The segments of a digit by bit number (R84; a to g by 93_implementation_defined.md G2, the point bit 7). -/
inductive Segment where
  | a
  | b
  | c
  | d
  | e
  | f
  | g
  | point
deriving DecidableEq, Repr

/-- The bit of a pattern that drives a segment (R84; a to g by 93_implementation_defined.md G2, log entry 6). -/
def segmentBit : Segment → Nat
  | .a => 0
  | .b => 1
  | .c => 2
  | .d => 3
  | .e => 4
  | .f => 5
  | .g => 6
  | .point => 7

/-- Segments are active-low: a 0 lights (R84). -/
def segmentLit (pattern : Byte) (x : Segment) : Bool := !pattern.getLsbD (segmentBit x)

/-- The pattern that drives digit `n` of the display, 0 the rightmost (R24, R86). -/
def digitByte (word : Word) (n : Nat) : Byte := word.extractLsb' (8 * n) 8

/-- ENC (R101). -/
def execEnc (a : Word) (s : State) : Host.Outcome State Fault Refusal :=
  .next (s.respond false (zext32 (digitPattern rfb a.toNat)))

/-- CMP (R104): DP is used, UNIT and LE are ignored (R73). HEX is not written. -/
def execCmp (f : Flags) (a : Word) (s : State) : Host.Outcome State Fault Refusal :=
  .next (s.respond false (compose rfb a.toNat (flagDp f)))

/-- LIT (R107): an index above 10 is a command error. -/
def execLit (a : Word) (s : State) : Host.Outcome State Fault Refusal :=
  if literalIndexLegal a then .next (s.respond false (literalWord a))
  else .next (s.raiseCommandError .badLiteralIndex)

end Sys2Proof.Machine
end

