-- ==== Sys2Proof/Machine/Converter.lean ====
section
/-!
DEFINITION. The distance converter: `Div`, `Scale`, `Band` and `LedNext` (R120, R121, R123, R124), exact on natural
numbers (R140) and over the parameters of R6. `p` is a pulse width in ticks.
-/
namespace Sys2Proof.Machine

/-- `Div(f)` (R120). -/
def divisor (c : Params) (f : Flags) : Nat :=
  (if flagDp f then c.dpDiv else 1) * (if flagUnit f then c.mDiv else 1)

/-- The numerator of the distance reading `X(p, f)`, `p × K_NUM` (R121). -/
def readingNum (c : Params) (p : Nat) : Nat := p * c.kNum

/-- The denominator of the distance reading `X(p, f)`, `K_DEN × Div(f)` (R121). -/
def readingDen (c : Params) (f : Flags) : Nat := c.kDen * divisor c f

/-- `Scale(p, f) = floor(X(p, f))` (R121). -/
def scale (c : Params) (f : Flags) (p : Nat) : Nat := readingNum c p / readingDen c f

/-- `X(p, f) ≤ n`, compared without rounding (R122, R123). -/
def readingAtMost (c : Params) (f : Flags) (p n : Nat) : Bool := decide (readingNum c p ≤ n * readingDen c f)

/-- `X(p, f) < n`, compared without rounding (R122, R123). -/
def readingBelow (c : Params) (f : Flags) (p n : Nat) : Bool := decide (readingNum c p < n * readingDen c f)

/-- `Band(p, f)`: the chain of comparisons of R123, in its order, on the untruncated reading. -/
def band (c : Params) (f : Flags) (p : Nat) : Option Nat :=
  if readingAtMost c f p (1 * c.bandUnit) then some 0
  else if readingAtMost c f p (2 * c.bandUnit) then some 1
  else if readingAtMost c f p (3 * c.bandUnit) then some 2
  else if readingAtMost c f p (4 * c.bandUnit) then some 3
  else if readingAtMost c f p (5 * c.bandUnit) then some 4
  else if readingAtMost c f p (6 * c.bandUnit) then some 5
  else if readingAtMost c f p (7 * c.bandUnit) then some 6
  else if readingAtMost c f p (8 * c.bandUnit) then some 7
  else if readingAtMost c f p (9 * c.bandUnit) then some 8
  else if readingBelow c f p (10 * c.bandUnit) then some 9
  else none

/-- The LED pattern of a band: `2^k − 1` for the bands 0 to 8, `LED_BAND9` for band 9 (R90, R123). -/
def bandPattern (c : Params) (k : Nat) : LedWord :=
  if k = 9 then BitVec.ofNat 10 c.ledBand9 else BitVec.ofNat 10 (2 ^ k - 1)

/-- `LedNext(L, p, f)` (R124): off without LE, the band's pattern with it, unchanged beyond the last band. -/
def ledNext (c : Params) (led : LedWord) (f : Flags) (p : Nat) : LedWord :=
  if flagLe f then
    match band c f p with
    | some k => bandPattern c k
    | none => led
  else 0#10

/-- The distance as DIST and the response hold it, 32 bits (R26). -/
def distWord (c : Params) (f : Flags) (p : Word) : Word := BitVec.ofNat 32 (scale c f p.toNat)

end Sys2Proof.Machine
end

