-- ==== Sys2Proof/Machine/Flags.lean ====
section
/-!
DEFINITION. The flag computations: `Ovf` (R122) and the status word (R27). CERR is set by
`State.raiseCommandError` alone and cleared by reset (R27).
-/
namespace Sys2Proof.Machine

/-- `Ovf(p, f)`: the untruncated distance is at or above the threshold (R122). -/
def ovfOf (c : Params) (f : Flags) (p : Nat) : Bool := !readingBelow c f p c.ovfThreshold

/-- `STATUS = zext_32({CERR, OVF})` (R27). -/
def statusWord (s : State) : Word :=
  (zext32 (BitVec.ofBool s.cerr) <<< 1) ||| zext32 (BitVec.ofBool s.ovf)

end Sys2Proof.Machine
end

