-- ==== Sys2Proof/Machine/Ports.lean ====
section
/-!
DEFINITION. The I/O port space (R50, R51): the ten ports, their numbers, which accept OUT, and `PortRead` and
`PortWrite` (R12). Numbers 10 to 15 are reserved and name no port (R57).
-/
namespace Sys2Proof.Machine

/-- The ports of R51, 0 to 9 in its order. -/
inductive Port where
  | tick
  | btn
  | sw
  | echo
  | trig
  | led
  | hex
  | pulse
  | dist
  | status
deriving DecidableEq, Repr

/-- A port's number (R51). -/
def portNumber : Port → BitVec 4
  | .tick => 0#4
  | .btn => 1#4
  | .sw => 2#4
  | .echo => 3#4
  | .trig => 4#4
  | .led => 5#4
  | .hex => 6#4
  | .pulse => 7#4
  | .dist => 8#4
  | .status => 9#4

/-- Whether a port accepts OUT (R51: RW). -/
def portWritable : Port → Bool
  | .trig => true
  | .led => true
  | .hex => true
  | .tick => false
  | .btn => false
  | .sw => false
  | .echo => false
  | .pulse => false
  | .dist => false
  | .status => false

/-- `PortRead`: the "reads as" column of R51, on the registers and lines of this tick, zero-extended. No read has a
side effect (R55). -/
def portRead (q : Port) (s : State) : Word :=
  match q with
  | .tick => s.tick
  | .btn => zext32 s.lines.btn
  | .sw => zext32 s.lines.sw
  | .echo => zext32 (BitVec.ofBool s.lines.echo)
  | .trig => zext32 (BitVec.ofBool s.trig)
  | .led => zext32 s.led
  | .hex => s.hex
  | .pulse => s.pulse
  | .dist => s.dist
  | .status => statusWord s

/-- `TRIG' <- a[0]` (R163). -/
def State.writeTrig (s : State) (a : Word) : State := { s with trig := trigBit a }

/-- `LED' <- a[9:0]` (R164). -/
def State.writeLed (s : State) (a : Word) : State := { s with led := ledBits a }

/-- `HEX' <- a` (R165). -/
def State.writeHex (s : State) (a : Word) : State := { s with hex := a }

/-- IN's effect on any port: the response carries the port's value of this tick, no register is written (R150). -/
def State.inPort (s : State) (q : Port) : State := s.respond false (portRead q s)

end Sys2Proof.Machine
end

