-- ==== Sys2Proof/Machine/Io.lean ====
section
/-!
DEFINITION. Digital I/O: IN for each of the ten ports (R150 to R160) and OUT for each of the three that accept it
(R162 to R165). IN's argument is ignored (R79). IN and OUT of any other port number are rejected by the decoder (R161,
R169).
-/
namespace Sys2Proof.Machine

/-- IN TICK (R151). -/
def execInTick (_x : Word) (s : State) : Host.Outcome State Fault Refusal := .next (s.inPort .tick)

/-- IN BTN (R152). -/
def execInBtn (_x : Word) (s : State) : Host.Outcome State Fault Refusal := .next (s.inPort .btn)

/-- IN SW (R153). -/
def execInSw (_x : Word) (s : State) : Host.Outcome State Fault Refusal := .next (s.inPort .sw)

/-- IN ECHO (R154). -/
def execInEcho (_x : Word) (s : State) : Host.Outcome State Fault Refusal := .next (s.inPort .echo)

/-- IN TRIG (R155). -/
def execInTrig (_x : Word) (s : State) : Host.Outcome State Fault Refusal := .next (s.inPort .trig)

/-- IN LED (R156). -/
def execInLed (_x : Word) (s : State) : Host.Outcome State Fault Refusal := .next (s.inPort .led)

/-- IN HEX (R157). -/
def execInHex (_x : Word) (s : State) : Host.Outcome State Fault Refusal := .next (s.inPort .hex)

/-- IN PULSE (R158). -/
def execInPulse (_x : Word) (s : State) : Host.Outcome State Fault Refusal := .next (s.inPort .pulse)

/-- IN DIST (R159). -/
def execInDist (_x : Word) (s : State) : Host.Outcome State Fault Refusal := .next (s.inPort .dist)

/-- IN STATUS (R160). -/
def execInStatus (_x : Word) (s : State) : Host.Outcome State Fault Refusal := .next (s.inPort .status)

/-- OUT TRIG (R163). -/
def execOutTrig (a : Word) (s : State) : Host.Outcome State Fault Refusal :=
  .next ((s.writeTrig a).respond false 0#32)

/-- OUT LED (R164). -/
def execOutLed (a : Word) (s : State) : Host.Outcome State Fault Refusal :=
  .next ((s.writeLed a).respond false 0#32)

/-- OUT HEX (R165). -/
def execOutHex (a : Word) (s : State) : Host.Outcome State Fault Refusal :=
  .next ((s.writeHex a).respond false 0#32)

end Sys2Proof.Machine
end

