-- ==== Sys2Proof/Machine/RangeSensor.lean ====
section
/-!
DEFINITION. The range sensor driver: CONV (R125), MEAS's acceptance (R128) and the four phases of a measurement, one
tick of each (R129 to R132). A phase that does not end changes nothing, for ever if need be (R134, R135): there is no
timeout.
-/
namespace Sys2Proof.Machine

/-- Steps 5 and 6 of the driver on a pulse of `p` ticks, and the response (R125, R132). -/
def State.finishReading (s : State) (f : Flags) (p : Word) : State :=
  { s.respond false (distWord rfb f p) with
    pulse := p
    dist := distWord rfb f p
    ovf := ovfOf rfb f p.toNat
    led := ledNext rfb s.led f p.toNat }

/-- CONV (R125). -/
def execConv (f : Flags) (a : Word) (s : State) : Host.Outcome State Fault Refusal :=
  .next (s.finishReading f a)

/-- MEAS, the tick of acceptance (R128): the flags are latched, TRIG goes low and the quiet period starts. No
response is produced, and the argument is ignored (R79). -/
def execMeas (f : Flags) (_x : Word) (s : State) : Host.Outcome State Fault Refusal :=
  .next { s.noResponse with f := f, trig := false, t0 := s.tick, phase := .quiet }

/-- MEAS, one tick of QUIET (R129). -/
def State.quietTick (s : State) : State :=
  if rfb.quietTicks ≤ s.sinceT0.toNat then
    { s.noResponse with trig := true, t0 := s.tick, phase := .trigger }
  else s.noResponse

/-- MEAS, one tick of TRIGGER (R130). -/
def State.triggerTick (s : State) : State :=
  if rfb.trigTicks ≤ s.sinceT0.toNat then { s.noResponse with trig := false, phase := .waitRise }
  else s.noResponse

/-- MEAS, one tick of WAIT_RISE (R131): the test is on the level of ECHO. -/
def State.waitRiseTick (s : State) : State :=
  if s.lines.echo then { s.noResponse with t0 := s.tick, phase := .measure } else s.noResponse

/-- MEAS, one tick of MEASURE (R132): the conversion uses the latched flags. -/
def State.measureTick (s : State) : State :=
  if s.lines.echo then s.noResponse else { s.finishReading s.f s.sinceT0 with phase := .ready }

end Sys2Proof.Machine
end

