-- ==== Sys2Proof/Machine/Timer.lean ====
section
/-!
DEFINITION. The tick timer: DLY's acceptance (R166) and one tick of its delay (R167).
-/
namespace Sys2Proof.Machine

/-- DLY (R166): a delay that does not fit the tick counter is a command error, and then no delay happens. -/
def execDly (a : Word) (s : State) : Host.Outcome State Fault Refusal :=
  if delayLegal rfb a then
    .next { s.noResponse with nt := BitVec.ofNat 32 (delayTicks rfb a), t0 := s.tick, phase := .delay }
  else .next (s.raiseCommandError .delayTooLong)

/-- DLY, one tick of DELAY (R167). -/
def State.delayTick (s : State) : State :=
  if s.nt.toNat ≤ s.sinceT0.toNat then { s.respond false 0#32 with phase := .ready } else s.noResponse

end Sys2Proof.Machine
end

