-- ==== Sys2Proof/Machine/Dispatch.lean ====
section
/-!
DEFINITION. exec: what the sequencer does in the tick in which a command is accepted, one arm per operation (R8 (2),
R72). The tick counter's and the environment's actions in that tick are step's.
-/
namespace Sys2Proof.Machine

def exec (i : Instr) (s : State) : Host.Outcome State Fault Refusal :=
  match i with
  | .enc a => Sys2Proof.Machine.execEnc a s
  | .cmp f a => Sys2Proof.Machine.execCmp f a s
  | .lit a => Sys2Proof.Machine.execLit a s
  | .conv f a => Sys2Proof.Machine.execConv f a s
  | .meas f x => Sys2Proof.Machine.execMeas f x s
  | .dly a => Sys2Proof.Machine.execDly a s
  | .inTick x => Sys2Proof.Machine.execInTick x s
  | .inBtn x => Sys2Proof.Machine.execInBtn x s
  | .inSw x => Sys2Proof.Machine.execInSw x s
  | .inEcho x => Sys2Proof.Machine.execInEcho x s
  | .inTrig x => Sys2Proof.Machine.execInTrig x s
  | .inLed x => Sys2Proof.Machine.execInLed x s
  | .inHex x => Sys2Proof.Machine.execInHex x s
  | .inPulse x => Sys2Proof.Machine.execInPulse x s
  | .inDist x => Sys2Proof.Machine.execInDist x s
  | .inStatus x => Sys2Proof.Machine.execInStatus x s
  | .outTrig a => Sys2Proof.Machine.execOutTrig a s
  | .outLed a => Sys2Proof.Machine.execOutLed a s
  | .outHex a => Sys2Proof.Machine.execOutHex a s

end Sys2Proof.Machine
end

