-- ==== Sys2Proof/WellFormed.lean ====
section
/-!
DEFINITION. The arguments R75 allows an operation. Register widths and port numbers are held by the types of
Syntax.lean; what is left are LIT's index and DLY's length. A command outside is a word of the table all the same:
it decodes, and its meaning is the command error of R205 (3) (log entry 11).
-/
namespace Sys2Proof

/-- The command's argument is one R75 calls legal. -/
def Instr.wf : Instr → Bool
  | .enc _ => true
  | .cmp _ _ => true
  | .lit a => Machine.literalIndexLegal a
  | .conv _ _ => true
  | .meas _ _ => true
  | .dly a => Machine.delayLegal Machine.rfb a
  | .inTick _ => true
  | .inBtn _ => true
  | .inSw _ => true
  | .inEcho _ => true
  | .inTrig _ => true
  | .inLed _ => true
  | .inHex _ => true
  | .inPulse _ => true
  | .inDist _ => true
  | .inStatus _ => true
  | .outTrig _ => true
  | .outLed _ => true
  | .outHex _ => true

end Sys2Proof
end

