-- ==== Sys2Proof/Decode.lean ====
section
/-!
DEFINITION. The command decoder (R70 to R80, R205), total on every 40-bit word and rejecting by cause, and the
encoder written from the same table (R71, R72). The spec's unit of a command is the 40-bit word; it has no byte
order (R53, R70), so the decoder reads a word, not bytes.
-/
namespace Sys2Proof

/-- Bits 39:36, the operation code (R71). -/
def opcField (w : CmdWord) : BitVec 4 := w.extractLsb' 36 4

/-- Bits 35:32, the modifier (R71). -/
def modField (w : CmdWord) : BitVec 4 := w.extractLsb' 32 4

/-- Bits 31:0, the argument, taken whole and unsigned (R71, R75). -/
def argField (w : CmdWord) : Word := w.extractLsb' 0 32

/-- A modifier that must be 0 (ENC, LIT, DLY; R78). -/
def withZeroModifier (m : BitVec 4) (i : Instr) : Except CommandError Instr :=
  if m = 0#4 then .ok i else .error .reservedModifier

/-- A modifier that is a flags nibble: `m[3]` is reserved, `m[2:0]` are the flags (CMP, CONV, MEAS; R73, R78). -/
def withFlags (m : BitVec 4) (i : Flags → Instr) : Except CommandError Instr :=
  if m.getLsbD 3 then .error .reservedModifier else .ok (i (m.extractLsb' 0 3))

/-- IN by port number (R74): 0 to 9 are legal, 10 to 15 reserved (R57, R161). -/
def decodeIn (m : BitVec 4) (a : Word) : Except CommandError Instr :=
  match m.toNat with
  | 0 => .ok (.inTick a)
  | 1 => .ok (.inBtn a)
  | 2 => .ok (.inSw a)
  | 3 => .ok (.inEcho a)
  | 4 => .ok (.inTrig a)
  | 5 => .ok (.inLed a)
  | 6 => .ok (.inHex a)
  | 7 => .ok (.inPulse a)
  | 8 => .ok (.inDist a)
  | 9 => .ok (.inStatus a)
  | _ => .error .reservedPort

/-- OUT by port number (R74): 4 to 6 are legal, every other number is not (R169). -/
def decodeOut (m : BitVec 4) (a : Word) : Except CommandError Instr :=
  match m.toNat with
  | 4 => .ok (.outTrig a)
  | 5 => .ok (.outLed a)
  | 6 => .ok (.outHex a)
  | _ => .error .badOutPort

/-- The decoder: the operation code first, then the modifier (R72, R205 (1) and (2)). The argument's limits (R205
(3)) are tested by the meanings of LIT and DLY. -/
def decode (w : CmdWord) : Except CommandError Instr :=
  match (opcField w).toNat with
  | 1 => withZeroModifier (modField w) (.enc (argField w))
  | 2 => withFlags (modField w) (fun f => .cmp f (argField w))
  | 3 => withZeroModifier (modField w) (.lit (argField w))
  | 4 => withFlags (modField w) (fun f => .conv f (argField w))
  | 5 => withFlags (modField w) (fun f => .meas f (argField w))
  | 6 => withZeroModifier (modField w) (.dly (argField w))
  | 7 => decodeIn (modField w) (argField w)
  | 8 => decodeOut (modField w) (argField w)
  | _ => .error .reservedOpcode

/-- The operation code of a command (R72). -/
def Instr.opc : Instr → BitVec 4
  | .enc _ => 0x1#4
  | .cmp _ _ => 0x2#4
  | .lit _ => 0x3#4
  | .conv _ _ => 0x4#4
  | .meas _ _ => 0x5#4
  | .dly _ => 0x6#4
  | .inTick _ => 0x7#4
  | .inBtn _ => 0x7#4
  | .inSw _ => 0x7#4
  | .inEcho _ => 0x7#4
  | .inTrig _ => 0x7#4
  | .inLed _ => 0x7#4
  | .inHex _ => 0x7#4
  | .inPulse _ => 0x7#4
  | .inDist _ => 0x7#4
  | .inStatus _ => 0x7#4
  | .outTrig _ => 0x8#4
  | .outLed _ => 0x8#4
  | .outHex _ => 0x8#4

/-- The modifier of a command: 0, the flags under a reserved 0, or the port number (R51, R73, R74). -/
def Instr.modifier : Instr → BitVec 4
  | .enc _ => 0#4
  | .cmp f _ => f.setWidth 4
  | .lit _ => 0#4
  | .conv f _ => f.setWidth 4
  | .meas f _ => f.setWidth 4
  | .dly _ => 0#4
  | .inTick _ => 0#4
  | .inBtn _ => 1#4
  | .inSw _ => 2#4
  | .inEcho _ => 3#4
  | .inTrig _ => 4#4
  | .inLed _ => 5#4
  | .inHex _ => 6#4
  | .inPulse _ => 7#4
  | .inDist _ => 8#4
  | .inStatus _ => 9#4
  | .outTrig _ => 4#4
  | .outLed _ => 5#4
  | .outHex _ => 6#4

/-- The argument of a command, the ignored one included (R75, R79). -/
def Instr.argument : Instr → Word
  | .enc a => a
  | .cmp _ a => a
  | .lit a => a
  | .conv _ a => a
  | .meas _ x => x
  | .dly a => a
  | .inTick x => x
  | .inBtn x => x
  | .inSw x => x
  | .inEcho x => x
  | .inTrig x => x
  | .inLed x => x
  | .inHex x => x
  | .inPulse x => x
  | .inDist x => x
  | .inStatus x => x
  | .outTrig a => a
  | .outLed a => a
  | .outHex a => a

/-- The one command format, `{opc, m, a}` (R71). -/
def packCommand (opc m : BitVec 4) (a : Word) : CmdWord :=
  (opc.setWidth 40 <<< 36) ||| (m.setWidth 40 <<< 32) ||| a.setWidth 40

/-- The word of a command (R71, R72). -/
def encode (i : Instr) : CmdWord := packCommand i.opc i.modifier i.argument

/-- The pseudo-instructions of R83. -/
def pseudoBlank : Instr := .outHex 0xFFFFFFFF#32
def pseudoLedOff : Instr := .outLed 0#32
def pseudoTrigLo : Instr := .outTrig 0#32
def pseudoRdTick : Instr := .inTick 0#32
def pseudoRdBtn : Instr := .inBtn 0#32
def pseudoRdSw : Instr := .inSw 0#32
def pseudoRdSt : Instr := .inStatus 0#32

/-- What the decoder reads from a word numbered as the opcode table numbers it: the table's row is the one 40-bit
command word, so its bits are `CMD[39:0]` (R71). A number that needs more than 40 bits is no command word. -/
def decodeTableWord (_nbits w : Nat) : Option Instr :=
  if w < 2 ^ 40 then (decode (BitVec.ofNat 40 w)).toOption else none

end Sys2Proof
end

