-- ==== Sys2Proof/Machine/Sequencer.lean ====
section
/-!
DEFINITION. The sequencer outside a command's acceptance: when a command is accepted (R35), what a rejected word does
(R205, R206), one tick of each phase (R28), and a tick of reset (R220).
-/
namespace Sys2Proof.Machine

/-- A command is accepted exactly when `RST = 0`, `CMD_VALID = 1` and `PHASE = READY` (R35). While the block is busy
or in reset the command lines are not looked at (R136, R220). -/
def State.accepts (s : State) : Bool := s.cmdReady && s.lines.cmdValid

/-- The operation accepted in this tick, if a word is accepted and it is one (R72, R80). -/
def State.acceptedInstr (s : State) : Option Instr :=
  if s.accepts then (decode s.lines.cmd).toOption else none

/-- One tick of the phase the sequencer is in; READY with nothing accepted only withdraws the response (R35). -/
def State.phaseTick (s : State) : State :=
  match s.phase with
  | .ready => s.noResponse
  | .quiet => s.quietTick
  | .trigger => s.triggerTick
  | .waitRise => s.waitRiseTick
  | .measure => s.measureTick
  | .delay => s.delayTick

/-- An accepted word: its command error where the decoder rejects it (R206). -/
def State.rejectWord (s : State) : State :=
  match decode s.lines.cmd with
  | .error e => s.raiseCommandError e
  | .ok _ => s

/-- A tick in which no operation is accepted: reset, a rejected word, or a tick of the present phase. -/
def State.otherTick (s : State) : State :=
  if s.lines.rst then s.resetTick
  else if s.accepts then s.rejectWord.advance
  else s.phaseTick.advance

/-- The rest of the tick in which an operation was accepted: the counter and the lines (R8). -/
def closeTick : Host.Outcome State Fault Refusal → Host.Outcome State Fault Refusal
  | .next s => .next s.advance
  | .fault r => .fault r
  | .refused r => .refused r

end Sys2Proof.Machine
end

