-- ==== Sys2Proof/Machine/Step.lean ====
section
/-!
DEFINITION. step: one tick of the block (R13), and where the next command stands: on the command port (R35).
-/
namespace Sys2Proof.Machine

/-- One tick: an accepted operation's action, or what else the tick holds. -/
def step (s : State) : Host.Outcome State Fault Refusal :=
  match s.acceptedInstr with
  | some i => closeTick (exec i s)
  | none => .next s.otherTick

/-- The machine fetches nothing (R37): the host presents a command on the port, and the block accepts it when it is
ready (R35). So the word is presented in this tick, with reset low and the sequencer READY (log entry 4). -/
def State.withFetchWord (s : State) (_nbits w : Nat) : State := s.present (BitVec.ofNat 40 w)

end Sys2Proof.Machine
end

