-- ==== Sys2Proof/Machine/ControlLoop.lean ====
section
/-!
DEFINITION. The reference host: DOC0's control loop with its save slots and extrema (R175 to R192). It is software
beside the block, not part of its State (R4 (f), R42); `hostCommand` is the command it presents next and `hostReply`
what it does with the response. Machine/System.lean couples it to the block. The open parameters are arguments.
-/
namespace Sys2Proof.Machine

/-- The literal display words by name (R91). -/
inductive Label where
  | err
  | cm
  | m
  | sv1
  | sv2
  | sv3
  | sv4
  | sv5
  | hi
  | lo
  | empty
deriving DecidableEq, Repr

/-- The index LIT takes for a label (R91). -/
def labelIndex : Label → Word
  | .err => 0#32
  | .cm => 1#32
  | .m => 2#32
  | .sv1 => 3#32
  | .sv2 => 4#32
  | .sv3 => 5#32
  | .sv4 => 6#32
  | .sv5 => 7#32
  | .hi => 8#32
  | .lo => 9#32
  | .empty => 10#32

/-- The label of slot `k + 1` (R91, R107). -/
def slotLabel : Fin 5 → Label
  | 0 => .sv1
  | 1 => .sv2
  | 2 => .sv3
  | 3 => .sv4
  | 4 => .sv5

/-- The unit mode (R88, glossary). -/
inductive UnitMode where
  | cm
  | m
deriving DecidableEq, Repr

/-- One entry of a timed display sequence: what is shown and so for how long (R186, R187, R189). -/
inductive Shown where
  /-- a label, fetched with LIT and shown `LABEL_SECONDS` -/
  | label (l : Label)
  /-- a word the host kept, shown as it is for `VALUE_SECONDS` -/
  | stored (w : Word)
  /-- a value, composed with CMP and shown `VALUE_SECONDS` -/
  | composed (v : Word)
deriving DecidableEq, Repr

/-- Where the host's program stands, that is which command it presents next. -/
inductive Activity where
  /-- Idle: one of the two reads of an iteration, the buttons first or the switches first (R178) -/
  | idling (buttonsFirst second : Bool)
  /-- SaveCapture: the measurement of a capture step, `final` outside the ConstantRead loop (R181, R182) -/
  | measuring (final : Bool)
  /-- the capture step has the distance `d` and fetches the word to show (R181) -/
  | wording (final : Bool) (d : Word)
  /-- the capture step shows its word (R181) -/
  | presenting (final : Bool) (d w : Word)
  /-- the ConstantRead loop reads the switches again (R182) -/
  | rereading
  /-- a display sequence fetches the word of its first entry (R186, R187) -/
  | fetching (x : Shown) (rest : List Shown)
  /-- a display sequence shows a word (R189) -/
  | placing (isLabel : Bool) (w : Word) (rest : List Shown)
  /-- a display sequence waits (R189) -/
  | holding (isLabel : Bool) (rest : List Shown)
  /-- the release wait (R188) -/
  | releasing
deriving DecidableEq, Repr

/-- The host's state (R176), with the point its program has reached and the model's own counter of free values
(log entry 16). -/
structure HostState where
  /-- `Slot[CM][1..5]` -/
  slotsCm : Vector Word 5
  /-- `Slot[M][1..5]` -/
  slotsM : Vector Word 5
  /-- the Extrema -/
  highest : Word
  lowest : Word
  /-- `S`, the switches as last read -/
  sw : BitVec 10
  /-- `B`, the buttons as last read -/
  btn : BitVec 2
  /-- the next command of the program -/
  doing : Activity
  /-- the command has been accepted and its response has not come (R175) -/
  waiting : Bool
  /-- ticks of the host's own computation before it presents the command (R175, R240) -/
  gap : Nat
  /-- how many free values the host has taken -/
  draws : Nat
deriving DecidableEq, Repr

/-- The empty-slot sentinel (R91, R108). -/
def sentinel : Word := 0xFFFFFFFF#32

/-- A slot's initial content (R177). -/
def emptySlots : Vector Word 5 := Vector.replicate 5 sentinel

/-- The host's start of day (R177). The last-read levels have no stated value; nothing reads them before they are
sampled (log entry 16). -/
def hostStart (p : HostParams) : HostState where
  slotsCm := emptySlots
  slotsM := emptySlots
  highest := 0#32
  lowest := p.lowInit
  sw := 0#10
  btn := 0#2
  doing := .idling (Config.freeButtonsFirst 0) false
  waiting := false
  gap := Config.freeGap 0
  draws := 1

/-- Bit `n` of `x` by the source's own expression, `(x >> n) - (x >> (n+1) << 1)` (R171). -/
def bitByDifference (x n : Nat) : Nat := (x >>> n) - ((x >>> (n + 1)) <<< 1)

/-- Switch `n` of a switch word (R171). -/
def switchFlag (sw : BitVec 10) (n : Nat) : Bool := bitByDifference sw.toNat n == 1

/-- ConstantRead (R88). -/
def constantRead (sw : BitVec 10) : Bool := switchFlag sw 0

/-- UnitMode (R88). -/
def unitMode (sw : BitVec 10) : UnitMode := if switchFlag sw 1 then .m else .cm

/-- DecimalShift (R88). -/
def decimalShift (sw : BitVec 10) : Bool := switchFlag sw 3

/-- LoadMode (R88). -/
def loadMode (sw : BitVec 10) : Bool := switchFlag sw 4

/-- SaveSlotSelect `k + 1` (R88). -/
def slotSelected (sw : BitVec 10) (k : Fin 5) : Bool := switchFlag sw (5 + k.val)

/-- The flags nibble, `(S >> 1) & 7` (R73, R181). -/
def hostFlags (sw : BitVec 10) : Flags := sw.extractLsb' 1 3

/-- Whether a button line reads "pressed" (R89). -/
def pressed (p : HostParams) (btn : BitVec 2) (i : Nat) : Bool := btn.getLsbD i == p.pressedLevel

/-- The button guard: exactly one line reads pressed (R179). -/
def buttonAccepted (p : HostParams) (btn : BitVec 2) : Bool := pressed p btn 0 != pressed p btn 1

/-- Neither line reads pressed (R188). -/
def buttonsReleased (p : HostParams) (btn : BitVec 2) : Bool := !pressed p btn 0 && !pressed p btn 1

/-- The slots of a unit mode (R176). -/
def HostState.slots (h : HostState) : UnitMode → Vector Word 5
  | .cm => h.slotsCm
  | .m => h.slotsM

/-- One word written to every selected slot (R184, R185). -/
def fillSelected (sw : BitVec 10) (w : Word) (v : Vector Word 5) : Vector Word 5 :=
  Vector.ofFn fun k => if slotSelected sw k then w else v[k]

/-- The selected slots of the current unit mode, and no other, take a word (R184, R185). -/
def HostState.saveSlots (h : HostState) (w : Word) : HostState :=
  match unitMode h.sw with
  | .cm => { h with slotsCm := fillSelected h.sw w h.slotsCm }
  | .m => { h with slotsM := fillSelected h.sw w h.slotsM }

/-- The extrema update with a distance, in the shape the open parameter names (R183). -/
def HostState.updateExtrema (p : HostParams) (h : HostState) (d : Word) : HostState :=
  match p.policy with
  | .twoIfs =>
    { h with
      highest := if h.highest < d then d else h.highest
      lowest := if d < h.lowest then d else h.lowest }
  | .elseIf =>
    if h.highest < d then { h with highest := d }
    else if d < h.lowest then { h with lowest := d } else h

/-- SaveReset (R185). -/
def HostState.saveReset (p : HostParams) (h : HostState) : HostState :=
  { h.saveSlots sentinel with highest := 0#32, lowest := p.lowInit }

/-- Whether a distance is an overflow reading for the host (R181, R190). -/
def hostOverflow (d : Word) : Bool := decide (rfb.ovfThreshold ≤ d.toNat)

/-- What follows the display of a capture's word: extrema and, in the final capture, slots; nothing of either after
an overflow reading (R182 to R184, R190). -/
def HostState.recordCapture (p : HostParams) (h : HostState) (final : Bool) (d w : Word) : HostState :=
  if hostOverflow d then h
  else
    let h1 := if unitMode h.sw = .cm ∧ decimalShift h.sw = false then h.updateExtrema p d else h
    if final then h1.saveSlots w else h1

/-- The label word of a unit mode (R186). -/
def unitLabel : UnitMode → Label
  | .cm => .cm
  | .m => .m

/-- LoadShowSlots's sequence: the mode label, then for each selected slot, 1 to 5, its label and its word (R186). -/
def slotSequence (h : HostState) : List Shown :=
  .label (unitLabel (unitMode h.sw)) ::
    (List.finRange 5).flatMap fun k =>
      if slotSelected h.sw k then [.label (slotLabel k), .stored ((h.slots (unitMode h.sw))[k])] else []

/-- LoadShowExtrema's sequence (R187). -/
def extremaSequence (h : HostState) : List Shown :=
  [.label .hi, .composed h.highest, .label .lo, .composed h.lowest]

/-- A display sequence goes on to its next entry, or ends in the release wait (R186 to R188). A stored word is shown
as it is. -/
def showFrom : List Shown → Activity
  | [] => .releasing
  | .label l :: rest => .fetching (.label l) rest
  | .stored w :: rest => .placing false w rest
  | .composed v :: rest => .fetching (.composed v) rest

/-- Whether an entry is shown for `LABEL_SECONDS` (R189). -/
def Shown.isLabel : Shown → Bool
  | .label _ => true
  | .stored _ => false
  | .composed _ => false

/-- The seconds an entry is shown (R6, R189). -/
def shownSeconds (isLabel : Bool) : Word :=
  BitVec.ofNat 32 (if isLabel then rfb.labelSeconds else rfb.valueSeconds)

/-- A fresh pass through Idle (R178): which line it reads first is free. -/
def HostState.toIdle (h : HostState) : HostState :=
  { h with doing := .idling (Config.freeButtonsFirst h.draws) false, draws := h.draws + 1 }

/-- Dispatch on LoadMode and the accepted button (R180). -/
def HostState.dispatch (p : HostParams) (h : HostState) : HostState :=
  if loadMode h.sw then
    if pressed p h.btn 0 then { h with doing := showFrom (slotSequence h) }
    else { h with doing := showFrom (extremaSequence h) }
  else
    if pressed p h.btn 0 then { h with doing := .measuring (!constantRead h.sw) }
    else { h.saveReset p with doing := .releasing }

/-- Whether a read of Idle is the buttons' (R178). -/
def idleReadsButtons (buttonsFirst second : Bool) : Bool := buttonsFirst != second

/-- A level read in Idle is kept (R178, R192). -/
def HostState.keepRead (h : HostState) (buttons : Bool) (data : Word) : HostState :=
  if buttons then { h with btn := data.setWidth 2 } else { h with sw := data.setWidth 10 }

/-- The command the host presents next (R178 to R188). -/
def hostCommand (h : HostState) : Instr :=
  match h.doing with
  | .idling bf second => if idleReadsButtons bf second then .inBtn 0#32 else .inSw 0#32
  | .measuring _ => .meas (hostFlags h.sw) 0#32
  | .wording _ d => if hostOverflow d then .lit (labelIndex .err) else .cmp (hostFlags h.sw) d
  | .presenting _ _ w => .outHex w
  | .rereading => .inSw 0#32
  | .fetching (.label l) _ => .lit (labelIndex l)
  | .fetching (.composed v) _ => .cmp (hostFlags h.sw) v
  | .fetching (.stored w) _ => .outHex w
  | .placing _ w _ => .outHex w
  | .holding isLabel _ => .dly (shownSeconds isLabel)
  | .releasing => .inBtn 0#32

/-- What the host's program does with the response to the command it presented (R178 to R188). -/
def hostReply (p : HostParams) (h : HostState) (data : Word) : HostState :=
  match h.doing with
  | .idling bf false => { h.keepRead (idleReadsButtons bf false) data with doing := .idling bf true }
  | .idling bf true =>
    let h1 := h.keepRead (idleReadsButtons bf true) data
    if buttonAccepted p h1.btn then h1.dispatch p else h1.toIdle
  | .measuring final => { h with doing := .wording final data }
  | .wording final d => { h with doing := .presenting final d data }
  | .presenting final d w =>
    { h.recordCapture p final d w with doing := if final then .releasing else .rereading }
  | .rereading => { h with sw := data.setWidth 10, doing := .measuring (!constantRead (data.setWidth 10)) }
  | .fetching (.stored _) rest => { h with doing := .holding false rest }
  | .fetching (.label _) rest => { h with doing := .placing true data rest }
  | .fetching (.composed _) rest => { h with doing := .placing false data rest }
  | .placing isLabel _ rest => { h with doing := .holding isLabel rest }
  | .holding _ rest => { h with doing := showFrom rest }
  | .releasing =>
    let h1 := { h with btn := data.setWidth 2 }
    if buttonsReleased p h1.btn then h1.toIdle else h1

end Sys2Proof.Machine
end

