-- ==== Sys2Proof/Machine/System.lean ====
section
/-!
DEFINITION. The block with the reference host on its command port (R35, R175, R235). The host's CMD_VALID and CMD take
the place of the levels the environment drew; RST, the buttons, the switches and ECHO stay the environment's.
-/
namespace Sys2Proof.Machine

/-- The whole system of DOC0 (R2): the block and its host. -/
structure System where
  block : State
  host : HostState
deriving DecidableEq, Repr

/-- The host takes a response in the one tick it is valid and goes on with its program, after a free number of ticks
(R35, R175, R240). -/
def System.takeResponse (p : HostParams) (y : System) : HostState :=
  if y.host.waiting && y.block.rspValid then
    let h := hostReply p y.host y.block.rspData
    { h with waiting := false, gap := Config.freeGap h.draws, draws := h.draws + 1 }
  else y.host

/-- The host presents its command when its computation is done and no command is outstanding (R235). -/
def HostState.presents (h : HostState) : Bool := !h.waiting && decide (h.gap = 0)

/-- The block with the host's levels on the command lines (R35). -/
def State.driven (s : State) (h : HostState) : State :=
  { s with lines := { s.lines with cmdValid := h.presents, cmd := encode (hostCommand h) } }

/-- The host at the end of a tick: it waits once its command is accepted, and counts its gap down before it presents
one. Where the block is reset it discards the command it was waiting on (R222) and, its slots and extrema untouched
(R221), polls again from Idle (log entry 17). -/
def HostState.endTick (h : HostState) (s : State) : HostState :=
  if s.accepts then { h with waiting := true }
  else if h.waiting then
    if s.lines.rst then { h.toIdle with waiting := false, gap := Config.freeGap h.draws } else h
  else { h with gap := h.gap - 1 }

/-- One tick of block and host together. -/
def System.step (p : HostParams) (y : System) : Host.Outcome System Fault Refusal :=
  let h := y.takeResponse p
  let s := y.block.driven h
  match Sys2Proof.Machine.step s with
  | .next t => .next { block := t, host := h.endTick s }
  | .fault r => .fault r
  | .refused r => .refused r

/-- The system right after reset, the host at its start of day (R43, R177), the first tick's levels free (R45). -/
def System.start (p : HostParams) : System := { block := State.reset, host := hostStart p }

end Sys2Proof.Machine
end

