-- ==== Sys2Proof/Safety.lean ====
section
/-!
DEFINITION. The terms claims are stated in: a command taken in this tick, the illegal command words of R205 written
out, the data functions of the rules as plain arithmetic, runs of several ticks, and the invariants of the block and
of the block with its host.
-/
namespace Sys2Proof.Machine

/-- The block accepts the word `w` in this tick (R35). -/
abbrev State.takesWord (s : State) (w : CmdWord) : Prop :=
  s.lines.rst = false ∧ s.lines.cmdValid = true ∧ s.lines.cmd = w ∧ s.phase = .ready

/-- The causes of R205 as conditions on the three fields of a command word. -/
abbrev IllegalFields (opc m a : Nat) : Prop :=
  opc = 0 ∨ 9 ≤ opc ∨ ((opc = 1 ∨ opc = 3 ∨ opc = 6) ∧ m ≠ 0) ∨ ((opc = 2 ∨ opc = 4 ∨ opc = 5) ∧ 8 ≤ m) ∨
  (opc = 7 ∧ 10 ≤ m) ∨ (opc = 8 ∧ m ≠ 4 ∧ m ≠ 5 ∧ m ≠ 6) ∨ (opc = 3 ∧ 10 < a) ∨ (opc = 6 ∧ 2 ^ 32 ≤ 50000000 * a)

/-- A word R205 rejects. -/
abbrev IllegalCommand (w : CmdWord) : Prop :=
  IllegalFields (w.extractLsb' 36 4).toNat (w.extractLsb' 32 4).toNat (w.extractLsb' 0 32).toNat

/-- The state a rejected command leaves before the tick ends: CERR, and the response `{1, 0}` (R206). -/
def State.rejected (s : State) : State := { s with cerr := true, rspv := true, rspd := 0x100000000#33 }

/-- The state with the response `{0, d}` (R76). -/
def State.answered (s : State) (d : Nat) : State := { s with rspv := true, rspd := BitVec.ofNat 33 (d % 2 ^ 32) }

/-- R100's table as numbers. -/
def patternOf (d : Nat) : Nat := [0xC0, 0xF9, 0xA4, 0xB0, 0x99, 0x92, 0x82, 0xF8, 0x80, 0x98].getD d 0xC0

/-- R103's word as a number. -/
def composedNumber (v : Nat) (dp : Bool) : Nat :=
  (patternOf (v / 1000 % 10) - if dp then 0 else 128) * 2 ^ 24 +
  (patternOf (v / 100 % 10) - if dp then 128 else 0) * 2 ^ 16 +
  patternOf (v / 10 % 10) * 2 ^ 8 + patternOf (v % 10)

/-- R107's words as numbers. -/
def literalNumber (a : Nat) : Nat :=
  [0x86AF2FFF, 0xC606FFFF, 0x2BC606FF, 0x12F9FFFF, 0x12A4FFFF, 0x12B0FFFF, 0x1299FFFF, 0x1292FFFF, 0x8B6FFFFF,
   0xC740FFFF, 0xFFFFFFFF].getD a 0

/-- `10^6 × Div(f)` (R120, R140 c). -/
def denominatorOf (f : Flags) : Nat :=
  1000000 * ((if f.getLsbD 2 then 10 else 1) * (if f.getLsbD 0 then 100 else 1))

/-- The distance of a pulse by R121's integer expression. -/
def distanceOf (f : Flags) (p : Nat) : Nat := p * 34029 / denominatorOf f

/-- The LED word after a reading by the table of R123 and by R124: with LE, the number of lit LEDs is the number of
whole thousands strictly below the untruncated reading. -/
def ledAfter (led : LedWord) (f : Flags) (p : Nat) : LedWord :=
  if f.getLsbD 1 then
    if 10000 * denominatorOf f ≤ p * 34029 then led
    else if 9000 * denominatorOf f < p * 34029 then 0x3FF#10
    else BitVec.ofNat 10 (2 ^ ((p * 34029 - 1) / (1000 * denominatorOf f)) - 1)
  else 0#10

/-- `n` ticks of the block. -/
def runTicks : Nat → State → Host.Outcome State Fault Refusal
  | 0, s => .next s
  | n + 1, s =>
    match step s with
    | .next t => runTicks n t
    | .fault r => .fault r
    | .refused r => .refused r

/-- No reset in the `n` ticks from now. -/
abbrev State.noResetFor (s : State) (n : Nat) : Prop := ∀ k, k < n → (s.linesAt k).rst = false

/-- While an operation is in progress no response is visible (R35, R172). -/
abbrev State.BusySilent (s : State) : Prop := s.phase ≠ .ready → s.rspv = false

/-- TRIG is high in the phase TRIGGER and low in the other phases of a measurement (R128 to R130, R137). -/
abbrev State.TrigFollowsPhase (s : State) : Prop :=
  (s.phase = .trigger → s.trig = true) ∧
  ((s.phase = .quiet ∨ s.phase = .waitRise ∨ s.phase = .measure) → s.trig = false)

/-- DIST and OVF are those of PULSE under one of the four divisors (R25 to R27, R120 to R122). -/
abbrev State.ReadingAgrees (s : State) : Prop :=
  ∃ d ∈ [1, 10, 100, 1000], s.dist.toNat = s.pulse.toNat * 34029 / (1000000 * d) ∧
    s.ovf = decide (10000 ≤ s.dist.toNat)

/-- A rejected command's response has data 0 and leaves CERR set (R76, R206). -/
abbrev State.ErrorAgrees (s : State) : Prop := s.rspErr = true → s.rspData = 0#32 ∧ s.cerr = true

/-- NT holds a whole number of seconds (R31). -/
abbrev State.DelayAgrees (s : State) : Prop := s.nt.toNat % 50000000 = 0

/-- The block's invariant. -/
abbrev State.Inv (s : State) : Prop :=
  s.BusySilent ∧ s.TrigFollowsPhase ∧ s.ReadingAgrees ∧ s.ErrorAgrees ∧ s.DelayAgrees

/-- The command port's discipline with the reference host: it waits for a response exactly while the block is busy
or shows one, so none is lost and no two commands overlap (R60, R175, R235); and no command of its was ever
rejected (R191). -/
abbrev System.Inv (y : System) : Prop :=
  y.block.BusySilent ∧ (y.host.waiting = true ↔ (y.block.phase ≠ .ready ∨ y.block.rspv = true)) ∧
  y.block.cerr = false

end Sys2Proof.Machine
end

