-- ==== Sys2Proof/Certificates/Slice0/Obligations.lean ====
section
/-!
DEFINITION. The statements for the provers. Each is about every state or every operand; `advance` is what the tick
counter and the environment do in the tick (stated in StepRunsTheAcceptedOperation), `noResetFor n` says that reset
is low in the next `n` ticks.
-/
open Sys2Proof Sys2Proof.Machine

/-! ### Encoding -/

/-- R71 to R74, R79: the decoder undoes the encoder, for every operation with every operand. That the bits R79 ignores
are operands too, and so come back, is the model's choice (log entry 10). -/
def Obligations.DecodeOfEncodeIsTheOperation : Prop :=
  ∀ i : Instr, decode (encode i) = .ok i

/-- R70 to R74, R80: a word that decodes is the encoding of what it decodes to, so no two words decode to one term of
`Instr`. For words that differ only in bits R79 ignores this rests on the model's choice to keep those bits as operands
(log entry 10): as commands, R79 makes such words one operation. -/
def Obligations.EncodeOfDecodeIsTheWord : Prop :=
  ∀ (w : CmdWord) (i : Instr), decode w = .ok i → encode i = w

/-- R77, R78, R74, R205 (1) and (2): which words the decoder rejects, and for which cause. -/
def Obligations.DecoderRejectsByCause : Prop :=
  ∀ w : CmdWord,
    let opc := (w.extractLsb' 36 4).toNat
    let m := (w.extractLsb' 32 4).toNat
    (decode w = .error .reservedOpcode ↔ (opc = 0 ∨ 9 ≤ opc)) ∧
    (decode w = .error .reservedModifier ↔
      (((opc = 1 ∨ opc = 3 ∨ opc = 6) ∧ m ≠ 0) ∨ ((opc = 2 ∨ opc = 4 ∨ opc = 5) ∧ 8 ≤ m))) ∧
    (decode w = .error .reservedPort ↔ (opc = 7 ∧ 10 ≤ m)) ∧
    (decode w = .error .badOutPort ↔ (opc = 8 ∧ m ≠ 4 ∧ m ≠ 5 ∧ m ≠ 6)) ∧
    decode w ≠ .error .badLiteralIndex ∧ decode w ≠ .error .delayTooLong

/-- Words written out from the encodings of R72, R73, R74 decode to their operations. -/
def Obligations.SampleWordsDecode : Prop :=
  decode 0x1000000009#40 = .ok (.enc 9#32) ∧ decode 0x24000004D2#40 = .ok (.cmp 4#3 1234#32) ∧
  decode 0x3000000008#40 = .ok (.lit 8#32) ∧ decode 0x4200008DA8#40 = .ok (.conv 2#3 36264#32) ∧
  decode 0x5600000000#40 = .ok (.meas 6#3 0#32) ∧ decode 0x6000000002#40 = .ok (.dly 2#32) ∧
  decode 0x7900000000#40 = .ok (.inStatus 0#32) ∧ decode 0x8679A4B099#40 = .ok (.outHex 0x79A4B099#32) ∧
  decode 0xFFFFFFFFFF#40 = .error .reservedOpcode ∧ decode 0x7A00000000#40 = .error .reservedPort

/-! ### The step -/

/-- R8, R13, R21, R35: a tick that accepts a word of an operation is `exec` of that operation, then the tick counter
and the environment; and what those two do. -/
def Obligations.StepRunsTheAcceptedOperation : Prop :=
  (∀ (s : State) (w : CmdWord) (i : Instr), s.takesWord w → decode w = .ok i →
    step s = match exec i s with
      | .next t => .next t.advance
      | .fault r => .fault r
      | .refused r => .refused r) ∧
  (∀ s : State, s.advance.tick = s.tick + 1#32 ∧ (∀ k, s.advance.linesAt k = s.linesAt (k + 1)) ∧
    { s.advance with tick := s.tick, lines := s.lines, coming := s.coming, draws := s.draws } = s)

/-- R200, R203, R206, R209: no tick stops the machine; an error is a response and a hang is an endless wait. -/
def Obligations.EveryTickAnswersANextState : Prop :=
  ∀ s : State, ∃ t, step s = .next t

/-- R21: the counter adds one, `mod 2^32`, in every tick without reset, whatever the phase and the command, and
reset clears it. -/
def Obligations.TickCountsEveryTick : Prop :=
  ∀ s : State, ∃ t, step s = .next t ∧
    t.tick.toNat = if s.lines.rst then 0 else (s.tick.toNat + 1) % 2 ^ 32

/-- R170: a difference of two samples of TICK is the number of ticks between them. -/
def Obligations.TickDifferenceIsElapsedTicks : Prop :=
  ∀ (s : State) (n : Nat), s.noResetFor n →
    ∃ t, runTicks n s = .next t ∧ (t.tick - s.tick).toNat = n % 2 ^ 32 ∧ (∀ k, t.linesAt k = s.linesAt (n + k))

/-- R205, R206, R77, R78: exactly the illegal words are rejected; a rejection sets CERR and responds `{1, 0}` and does
nothing else; CERR stays set until reset. -/
def Obligations.IllegalCommandsSetOnlyCerr : Prop :=
  (∀ (s : State) (w : CmdWord), s.takesWord w → IllegalCommand w → step s = .next s.rejected.advance) ∧
  (∀ (s : State) (w : CmdWord), s.takesWord w → ¬ IllegalCommand w →
    ∃ t, step s = .next t ∧ t.cerr = s.cerr ∧ (t.rspv = true → t.rspErr = false)) ∧
  (∀ s : State, s.lines.rst = false → s.cerr = true → ∃ t, step s = .next t ∧ t.cerr = true)

/-- R35: a response is visible for one tick only; a READY block with nothing to accept changes nothing else. -/
def Obligations.ResponseIsWithdrawnAfterOneTick : Prop :=
  ∀ s : State, s.lines.rst = false → s.lines.cmdValid = false → s.phase = .ready →
    step s = .next ({ s with rspv := false } : State).advance

/-! ### The operations -/

/-- R100, R101: ENC responds with the digit's pattern, the pattern of 0 beyond 9, and writes nothing. The patterns of
6, 7 and 8 are the spec's "from general knowledge, not in source" (R100; log entry 6). -/
def Obligations.EncRespondsWithThePattern : Prop :=
  (∀ (a : Word) (s : State), exec (.enc a) s = .next (s.answered (patternOf a.toNat))) ∧
  (∀ (s : State) (w : CmdWord), s.takesWord w → w.extractLsb' 36 4 = 0x1#4 →
    step s = .next (if w.extractLsb' 32 4 = 0#4 then s.answered (patternOf (w.extractLsb' 0 32).toNat)
      else s.rejected).advance)

/-- R103, R104: CMP responds with the composed word and writes nothing; it uses DP only. It rests on the digit
patterns (log entry 6). -/
def Obligations.CmpRespondsWithTheComposedWord : Prop :=
  (∀ (f : Flags) (a : Word) (s : State),
    exec (.cmp f a) s = .next (s.answered (composedNumber a.toNat (f.getLsbD 2)))) ∧
  (∀ (s : State) (w : CmdWord), s.takesWord w → w.extractLsb' 36 4 = 0x2#4 →
    step s = .next (if w.getLsbD 35 then s.rejected
      else s.answered (composedNumber (w.extractLsb' 0 32).toNat (w.getLsbD 34))).advance)

/-- R107: LIT responds with the literal word of an index 0 to 10; another index is a command error. -/
def Obligations.LitRespondsWithTheLiteralWord : Prop :=
  (∀ (a : Word) (s : State), a.toNat ≤ 10 → exec (.lit a) s = .next (s.answered (literalNumber a.toNat))) ∧
  (∀ (a : Word) (s : State), 10 < a.toNat → exec (.lit a) s = .next s.rejected) ∧
  (∀ (s : State) (w : CmdWord), s.takesWord w → w.extractLsb' 36 4 = 0x3#4 →
    step s = .next (if w.extractLsb' 32 4 = 0#4 ∧ (w.extractLsb' 0 32).toNat ≤ 10
      then s.answered (literalNumber (w.extractLsb' 0 32).toNat) else s.rejected).advance)

/-- R125, with R120 to R124 and R202: CONV writes the pulse, the truncated distance, the overflow flag and the LED
word, responds with the distance also when it overflows, and writes nothing else; from its command word, the reserved
flag bit rejects it and the other three are its flags. The exact coefficient and band 9's pattern are the spec's
decisions D10 and D12 (log entry 6). -/
def Obligations.ConvConvertsThePulse : Prop :=
  (∀ (f : Flags) (a : Word) (s : State),
    exec (.conv f a) s = .next { s.answered (distanceOf f a.toNat) with
      pulse := a
      dist := BitVec.ofNat 32 (distanceOf f a.toNat)
      ovf := decide (10000 * denominatorOf f ≤ a.toNat * 34029)
      led := ledAfter s.led f a.toNat }) ∧
  (∀ (s : State) (w : CmdWord), s.takesWord w → w.extractLsb' 36 4 = 0x4#4 →
    step s = if w.getLsbD 35 then .next s.rejected.advance
      else match exec (.conv (w.extractLsb' 32 3) (w.extractLsb' 0 32)) s with
        | .next t => .next t.advance
        | .fault r => .fault r
        | .refused r => .refused r)

/-- R128, R127, R79: MEAS, when accepted, latches its flags, drives TRIG low, samples TICK and starts the quiet
period, and writes nothing else; its argument is ignored; the reserved flag bit rejects it and starts nothing. -/
def Obligations.MeasStartsTheProtocol : Prop :=
  (∀ (f : Flags) (x : Word) (s : State),
    exec (.meas f x) s = .next { s with f := f, trig := false, t0 := s.tick, phase := .quiet, rspv := false }) ∧
  (∀ (s : State) (w : CmdWord), s.takesWord w → w.extractLsb' 36 4 = 0x5#4 →
    step s = .next (if w.getLsbD 35 then s.rejected else
      { s with f := w.extractLsb' 32 3, trig := false, t0 := s.tick, phase := .quiet, rspv := false }).advance)

/-- R166: DLY, when accepted, holds the delay's length and the start sample and enters DELAY, and writes nothing
else; a delay that does not fit 32 bits, or a modifier, is a command error. -/
def Obligations.DlyStartsTheDelay : Prop :=
  (∀ (a : Word) (s : State), a.toNat ≤ 85 →
    exec (.dly a) s =
      .next { s with nt := BitVec.ofNat 32 (50000000 * a.toNat), t0 := s.tick, phase := .delay, rspv := false }) ∧
  (∀ (a : Word) (s : State), 86 ≤ a.toNat → exec (.dly a) s = .next s.rejected) ∧
  (∀ (s : State) (w : CmdWord), s.takesWord w → w.extractLsb' 36 4 = 0x6#4 →
    step s = .next (if w.extractLsb' 32 4 = 0#4 ∧ 50000000 * (w.extractLsb' 0 32).toNat < 2 ^ 32
      then { s with
        nt := BitVec.ofNat 32 (50000000 * (w.extractLsb' 0 32).toNat)
        t0 := s.tick, phase := .delay, rspv := false }
      else s.rejected).advance)

/-- R150 to R161, R51: IN responds with its port's value of this tick, zero-extended, and writes nothing; its argument
is ignored; ports 10 to 15 are rejected. -/
def Obligations.InRespondsWithThePort : Prop :=
  (∀ (x : Word) (s : State),
    exec (.inTick x) s = .next (s.answered s.tick.toNat) ∧
    exec (.inBtn x) s = .next (s.answered s.lines.btn.toNat) ∧
    exec (.inSw x) s = .next (s.answered s.lines.sw.toNat) ∧
    exec (.inEcho x) s = .next (s.answered s.lines.echo.toNat) ∧
    exec (.inTrig x) s = .next (s.answered s.trig.toNat) ∧
    exec (.inLed x) s = .next (s.answered s.led.toNat) ∧
    exec (.inHex x) s = .next (s.answered s.hex.toNat) ∧
    exec (.inPulse x) s = .next (s.answered s.pulse.toNat) ∧
    exec (.inDist x) s = .next (s.answered s.dist.toNat) ∧
    exec (.inStatus x) s = .next (s.answered (2 * s.cerr.toNat + s.ovf.toNat))) ∧
  (∀ (s : State) (w : CmdWord), s.takesWord w → w.extractLsb' 36 4 = 0x7#4 →
    step s = .next (match (w.extractLsb' 32 4).toNat with
      | 0 => s.answered s.tick.toNat
      | 1 => s.answered s.lines.btn.toNat
      | 2 => s.answered s.lines.sw.toNat
      | 3 => s.answered s.lines.echo.toNat
      | 4 => s.answered s.trig.toNat
      | 5 => s.answered s.led.toNat
      | 6 => s.answered s.hex.toNat
      | 7 => s.answered s.pulse.toNat
      | 8 => s.answered s.dist.toNat
      | 9 => s.answered (2 * s.cerr.toNat + s.ovf.toNat)
      | _ => s.rejected).advance)

/-- R162 to R165, R169: OUT writes its port's own width of the argument, responds 0 and writes nothing else; every
other port number is rejected. -/
def Obligations.OutWritesThePort : Prop :=
  (∀ (a : Word) (s : State),
    exec (.outTrig a) s = .next { s.answered 0 with trig := decide (a.toNat % 2 = 1) } ∧
    exec (.outLed a) s = .next { s.answered 0 with led := BitVec.ofNat 10 a.toNat } ∧
    exec (.outHex a) s = .next { s.answered 0 with hex := a }) ∧
  (∀ (s : State) (w : CmdWord), s.takesWord w → w.extractLsb' 36 4 = 0x8#4 →
    step s = .next (match (w.extractLsb' 32 4).toNat with
      | 4 => { s.answered 0 with trig := w.getLsbD 0 }
      | 5 => { s.answered 0 with led := w.extractLsb' 0 10 }
      | 6 => { s.answered 0 with hex := w.extractLsb' 0 32 }
      | _ => s.rejected).advance)

/-- R51, R55, R173: in the state that exec of an OUT answers, which is the state before the tick counter and the
environment act (the model's split, log entry 5), the port reads what was stored, truncated to its width and
zero-extended, and every other port reads as before. In the next tick TICK has counted and BTN, SW and ECHO may have
moved (R21, R56). -/
def Obligations.PortReadsBackWhatOutWrote : Prop :=
  ∀ (a : Word) (s : State),
    (∃ t, exec (.outTrig a) s = .next t ∧ (portRead .trig t).toNat = a.toNat % 2 ∧
      ∀ q, q ≠ .trig → portRead q t = portRead q s) ∧
    (∃ t, exec (.outLed a) s = .next t ∧ (portRead .led t).toNat = a.toNat % 1024 ∧
      ∀ q, q ≠ .led → portRead q t = portRead q s) ∧
    (∃ t, exec (.outHex a) s = .next t ∧ portRead .hex t = a ∧ ∀ q, q ≠ .hex → portRead q t = portRead q s)

/-! ### Reset -/

/-- R220, R43: in a tick with RST high no command is accepted, whatever else the tick holds, and every register takes
its reset value. -/
def Obligations.ResetTickSetsEveryRegister : Prop :=
  ∀ s : State, s.lines.rst = true → s.cmdReady = false ∧ s.acceptedInstr = none ∧ ∃ t, step s = .next t ∧
    t.tick = 0#32 ∧ t.trig = false ∧ t.led = 0#10 ∧ t.hex = 0xFFFFFFFF#32 ∧ t.pulse = 0#32 ∧ t.dist = 0#32 ∧
    t.ovf = false ∧ t.cerr = false ∧ t.phase = .ready ∧ t.t0 = 0#32 ∧ t.f = 0#3 ∧ t.nt = 0#32 ∧
    t.rspv = false ∧ t.rspd = 0#33 ∧ (t.lines.rst = false → t.cmdReady = true)

/-- R43: the registers right after reset. -/
def Obligations.ResetStateRegisters : Prop :=
  State.reset.tick = 0#32 ∧ State.reset.trig = false ∧ State.reset.led = 0#10 ∧
  State.reset.hex = 0xFFFFFFFF#32 ∧ State.reset.pulse = 0#32 ∧ State.reset.dist = 0#32 ∧
  State.reset.ovf = false ∧ State.reset.cerr = false ∧ State.reset.phase = .ready ∧ State.reset.t0 = 0#32 ∧
  State.reset.f = 0#3 ∧ State.reset.nt = 0#32 ∧ State.reset.rspv = false ∧ State.reset.rspd = 0#33

/-- R222: a command in progress when reset comes never responds, and TRIG stays low: as long as the host presents no
new command after the reset tick, no response is visible. -/
def Obligations.ResetAbandonsTheCommand : Prop :=
  ∀ (s : State) (n : Nat), s.lines.rst = true → (∀ k, 0 < k → k < n → (s.linesAt k).cmdValid = false) → 0 < n →
    ∃ t, runTicks n s = .next t ∧ t.rspv = false ∧ t.trig = false ∧ t.phase = .ready

/-! ### The phases -/

/-- R129 to R132, R167: one tick of each phase, with everything it writes; a phase that does not end writes nothing
but the withdrawn response. -/
def Obligations.PhaseTicksFollowTheirRules : Prop :=
  ∀ s : State, s.lines.rst = false →
    (s.phase = .quiet → step s = .next (if 50000 ≤ (s.tick - s.t0).toNat
      then { s with trig := true, t0 := s.tick, phase := .trigger, rspv := false }
      else { s with rspv := false }).advance) ∧
    (s.phase = .trigger → step s = .next (if 501 ≤ (s.tick - s.t0).toNat
      then { s with trig := false, phase := .waitRise, rspv := false }
      else { s with rspv := false }).advance) ∧
    (s.phase = .waitRise → step s = .next (if s.lines.echo
      then { s with t0 := s.tick, phase := .measure, rspv := false }
      else { s with rspv := false }).advance) ∧
    (s.phase = .measure → step s = .next (if s.lines.echo then { s with rspv := false }
      else { s.answered (distanceOf s.f (s.tick - s.t0).toNat) with
        pulse := s.tick - s.t0
        dist := BitVec.ofNat 32 (distanceOf s.f (s.tick - s.t0).toNat)
        ovf := decide (10000 * denominatorOf s.f ≤ (s.tick - s.t0).toNat * 34029)
        led := ledAfter s.led s.f (s.tick - s.t0).toNat
        phase := .ready }).advance) ∧
    (s.phase = .delay → step s = .next (if s.nt.toNat ≤ (s.tick - s.t0).toNat
      then { s.answered 0 with phase := .ready } else { s with rspv := false }).advance)

/-- R172: the sequencer takes only the arrows of MEAS and DLY, one after the other, each on its condition; no input
diverts it. -/
def Obligations.SequencerTakesOnlyItsArrows : Prop :=
  ∀ s t : State, s.lines.rst = false → step s = .next t → t.phase ≠ s.phase →
    (s.phase = .ready ∧ t.phase = .quiet ∧ ∃ f x, s.takesWord (encode (.meas f x))) ∨
    (s.phase = .quiet ∧ t.phase = .trigger ∧ 50000 ≤ (s.tick - s.t0).toNat) ∨
    (s.phase = .trigger ∧ t.phase = .waitRise ∧ 501 ≤ (s.tick - s.t0).toNat) ∨
    (s.phase = .waitRise ∧ t.phase = .measure ∧ s.lines.echo = true) ∨
    (s.phase = .measure ∧ t.phase = .ready ∧ s.lines.echo = false ∧ t.rspv = true) ∨
    (s.phase = .ready ∧ t.phase = .delay ∧ ∃ a, s.takesWord (encode (.dly a))) ∨
    (s.phase = .delay ∧ t.phase = .ready ∧ s.nt.toNat ≤ (s.tick - s.t0).toNat ∧ t.rspv = true)

/-- R133, R129, R130: MEAS as a whole command. Accepted in this tick, with `e` the first tick from 50,502 on in which
ECHO reads 1 and `g` the first later one in which it reads 0, it responds at tick `g + 1` with the distance of a pulse
of `g − e` ticks; and on the way no response is visible and TRIG is high exactly during ticks 50,001 to 50,501. -/
def Obligations.MeasMeasuresTheEcho : Prop :=
  ∀ (s : State) (f : Flags) (x : Word) (e g : Nat), s.takesWord (encode (.meas f x)) → s.noResetFor (g + 1) →
    50502 ≤ e → e < g → (∀ k, 50502 ≤ k → k < e → (s.linesAt k).echo = false) →
    (∀ k, e ≤ k → k < g → (s.linesAt k).echo = true) → (s.linesAt g).echo = false →
    (∃ t, runTicks (g + 1) s = .next t ∧
      t.tick = s.tick + BitVec.ofNat 32 (g + 1) ∧ t.trig = false ∧ t.hex = s.hex ∧ t.cerr = s.cerr ∧
      t.phase = .ready ∧ t.pulse = BitVec.ofNat 32 (g - e) ∧
      t.dist = BitVec.ofNat 32 (distanceOf f ((g - e) % 2 ^ 32)) ∧
      t.ovf = decide (10000 * denominatorOf f ≤ (g - e) % 2 ^ 32 * 34029) ∧
      t.led = ledAfter s.led f ((g - e) % 2 ^ 32) ∧ t.rspv = true ∧ t.rspErr = false ∧ t.rspData = t.dist) ∧
    (∀ k, 0 < k → k ≤ g → ∃ u, runTicks k s = .next u ∧ u.rspv = false ∧ u.phase ≠ .ready ∧
      u.trig = decide (50001 ≤ k ∧ k ≤ 50501))

/-- R9, R203, R133: a MEAS never completes unless the echo rose and fell: while no tick from 50,502 on read 1 with a
later one reading 0, no response comes. -/
def Obligations.MeasNeverEndsWithoutItsEcho : Prop :=
  ∀ (s : State) (f : Flags) (x : Word) (n : Nat), s.takesWord (encode (.meas f x)) → s.noResetFor n → 0 < n →
    ¬ (∃ e g, 50502 ≤ e ∧ e < g ∧ g < n ∧ (s.linesAt e).echo = true ∧ (s.linesAt g).echo = false) →
    ∃ t, runTicks n s = .next t ∧ t.rspv = false ∧ t.phase ≠ .ready

/-- R134: a block whose echo line never rises stays in WAIT_RISE: not ready, no response, the counter running, pins
and results as they were. -/
def Obligations.HangsWaitingForTheRise : Prop :=
  ∀ (s : State) (n : Nat), s.phase = .waitRise → s.noResetFor n →
    (∀ k, k < n → (s.linesAt k).echo = false) → 0 < n →
    ∃ t, runTicks n s = .next t ∧ t.phase = .waitRise ∧ t.cmdReady = false ∧ t.rspv = false ∧
      t.tick = s.tick + BitVec.ofNat 32 n ∧ t.trig = s.trig ∧ (s.TrigFollowsPhase → t.trig = false) ∧
      t.led = s.led ∧ t.hex = s.hex ∧ t.pulse = s.pulse ∧ t.dist = s.dist ∧ t.ovf = s.ovf ∧ t.cerr = s.cerr

/-- R135: the same one phase later, while the echo line never falls. -/
def Obligations.HangsWaitingForTheFall : Prop :=
  ∀ (s : State) (n : Nat), s.phase = .measure → s.noResetFor n →
    (∀ k, k < n → (s.linesAt k).echo = true) → 0 < n →
    ∃ t, runTicks n s = .next t ∧ t.phase = .measure ∧ t.cmdReady = false ∧ t.rspv = false ∧
      t.tick = s.tick + BitVec.ofNat 32 n ∧ t.t0 = s.t0 ∧ t.trig = s.trig ∧ t.led = s.led ∧ t.hex = s.hex ∧
      t.pulse = s.pulse ∧ t.dist = s.dist ∧ t.ovf = s.ovf ∧ t.cerr = s.cerr

/-- R166 to R168: DLY as a whole command: it responds `max(50,000,000 × a, 1) + 1` ticks after its acceptance and not
before, and no register a host can read changes but TICK. -/
def Obligations.DlyDelaysItsSeconds : Prop :=
  ∀ (s : State) (a : Word), s.takesWord (encode (.dly a)) → a.toNat ≤ 85 →
    s.noResetFor (max (50000000 * a.toNat) 1 + 1) →
    (∃ t, runTicks (max (50000000 * a.toNat) 1 + 1) s = .next t ∧ t.phase = .ready ∧ t.rspv = true ∧
      t.rspd = 0#33 ∧ t.tick = s.tick + BitVec.ofNat 32 (max (50000000 * a.toNat) 1 + 1) ∧ t.trig = s.trig ∧
      t.led = s.led ∧ t.hex = s.hex ∧ t.pulse = s.pulse ∧ t.dist = s.dist ∧ t.ovf = s.ovf ∧ t.cerr = s.cerr) ∧
    (∀ k, 0 < k → k ≤ max (50000000 * a.toNat) 1 →
      ∃ u, runTicks k s = .next u ∧ u.rspv = false ∧ u.phase = .delay)

/-- R136, R35: while an operation is in progress the buttons, the switches and the command lines have no effect at
all, and ECHO has one in WAIT_RISE and MEASURE only; in READY the buttons, the switches and ECHO matter to an IN of
theirs only. -/
def Obligations.UnreadLinesHaveNoEffect : Prop :=
  (∀ (s : State) (l : Lines), s.phase ≠ .ready → l.rst = s.lines.rst →
    ((s.phase = .waitRise ∨ s.phase = .measure) → l.echo = s.lines.echo) →
    step { s with lines := l } = step s) ∧
  (∀ (s : State) (l : Lines), s.phase = .ready → l.rst = s.lines.rst → l.cmdValid = s.lines.cmdValid →
    l.cmd = s.lines.cmd →
    (∀ x, decode s.lines.cmd ≠ .ok (.inBtn x) ∧ decode s.lines.cmd ≠ .ok (.inSw x) ∧
      decode s.lines.cmd ≠ .ok (.inEcho x)) →
    step { s with lines := l } = step s)

/-! ### Whole-machine rules -/

/-- R22 to R24, R66: the pins change only by the operations named for them: HEX by OUT HEX, LED by OUT LED, CONV and
the end of a measurement, TRIG by OUT TRIG and MEAS. -/
def Obligations.PinsChangeOnlyByTheirWriters : Prop :=
  ∀ s t : State, s.lines.rst = false → step s = .next t →
    (t.hex ≠ s.hex → s.takesWord (encode (.outHex t.hex))) ∧
    (t.led ≠ s.led → (∃ a, s.takesWord (encode (.outLed a))) ∨ (∃ f a, s.takesWord (encode (.conv f a))) ∨
      (s.phase = .measure ∧ s.lines.echo = false)) ∧
    (t.trig ≠ s.trig → (∃ a, s.takesWord (encode (.outTrig a))) ∨ (∃ f x, s.takesWord (encode (.meas f x))) ∨
      (s.phase = .quiet ∧ t.phase = .trigger) ∨ (s.phase = .trigger ∧ t.phase = .waitRise))

/-- R25 to R27, R38: the last reading and the flags change only by a conversion: PULSE, DIST and OVF by CONV and the
end of a measurement, CERR by a rejected command, and F, NT by the acceptance of MEAS and DLY (R30, R31). -/
def Obligations.ResultsChangeOnlyByTheirWriters : Prop :=
  ∀ s t : State, s.lines.rst = false → step s = .next t →
    ((t.pulse ≠ s.pulse ∨ t.dist ≠ s.dist ∨ t.ovf ≠ s.ovf) →
      (∃ f a, s.takesWord (encode (.conv f a))) ∨ (s.phase = .measure ∧ s.lines.echo = false)) ∧
    (t.cerr ≠ s.cerr → s.accepts = true ∧ IllegalCommand s.lines.cmd) ∧
    (t.f ≠ s.f → ∃ x, s.takesWord (encode (.meas t.f x))) ∧
    (t.nt ≠ s.nt → ∃ a, s.takesWord (encode (.dly a)) ∧ t.nt.toNat = 50000000 * a.toNat)

/-- R25 to R27, R31, R35, R76, R122, R128 to R130: every tick, from every state that meets it, keeps the block's
invariant. -/
def Obligations.EveryTickKeepsTheInvariant : Prop :=
  ∀ s t : State, s.Inv → step s = .next t → t.Inv

/-- R43: the state right after reset meets the block's invariant. -/
def Obligations.ResetMeetsTheInvariant : Prop :=
  State.reset.Inv

/-! ### Data functions -/

/-- R105: the laws of the composer: the byte lanes with the point off and on, exactly one point, the difference of
the two words, and the digits recovered from a word. -/
def Obligations.ComposerLaws : Prop :=
  (∀ v : Nat,
    (compose rfb v false).extractLsb' 24 8 = digitPattern rfb (v / 1000 % 10) - 0x80#8 ∧
    (compose rfb v false).extractLsb' 16 8 = digitPattern rfb (v / 100 % 10) ∧
    (compose rfb v true).extractLsb' 24 8 = digitPattern rfb (v / 1000 % 10) ∧
    (compose rfb v true).extractLsb' 16 8 = digitPattern rfb (v / 100 % 10) - 0x80#8 ∧
    (∀ dp, (compose rfb v dp).extractLsb' 8 8 = digitPattern rfb (v / 10 % 10) ∧
      (compose rfb v dp).extractLsb' 0 8 = digitPattern rfb (v % 10) ∧
      (compose rfb v dp).getLsbD 31 = dp ∧ (compose rfb v dp).getLsbD 23 = !dp ∧
      (compose rfb v dp).getLsbD 15 = true ∧ (compose rfb v dp).getLsbD 7 = true) ∧
    compose rfb v false ^^^ compose rfb v true = 0x80800000#32) ∧
  (∀ d e : Nat, d < 10 → e < 10 → digitPattern rfb d = digitPattern rfb e → d = e) ∧
  (∀ (v u : Nat) (dp : Bool), compose rfb v dp = compose rfb u dp → v % 10000 = u % 10000)

/-- R106, R102: the composer shows the four low decimal digits. -/
def Obligations.ComposerShowsTheFourLowDigits : Prop :=
  ∀ (v : Nat) (dp : Bool), compose rfb v dp = compose rfb (v % 10000) dp

/-- R94: no composed word is the empty-slot sentinel; every byte of it has two bits clear. -/
def Obligations.ComposedWordIsNeverTheSentinel : Prop :=
  ∀ (v : Nat) (dp : Bool), compose rfb v dp ≠ 0xFFFFFFFF#32 ∧
    ∀ n, n < 4 → ∃ i j, i < j ∧ j < 8 ∧ (digitByte (compose rfb v dp) n).getLsbD i = false ∧
      (digitByte (compose rfb v dp) n).getLsbD j = false

/-- R122: the overflow flag is `Scale ≥ 10000`, and the least overflowing pulse of each flag setting. -/
def Obligations.OverflowThresholds : Prop :=
  ∀ (f : Flags) (p : Nat),
    (ovfOf rfb f p = true ↔ 10000 ≤ scale rfb f p) ∧
    (ovfOf rfb f p = true ↔ 10000 * 1000000 * divisor rfb f ≤ p * 34029) ∧
    (ovfOf rfb f p = true ↔ (if flagDp f then (if flagUnit f then 293866996 else 2938670)
      else (if flagUnit f then 29386700 else 293867)) ≤ p)

/-- R123: for every pulse width the band is the whole thousands of the reading, and there is none exactly from the
overflow threshold on; the two readings of C1 agree. -/
def Obligations.BandIsTheThousandsOfTheReading : Prop :=
  ∀ (f : Flags) (p : Nat), p < 2 ^ 32 →
    band rfb f p = if ovfOf rfb f p then none else some (scale rfb f p / 1000)

/-- R126: the laws of scaling. -/
def Obligations.ScalingLaws : Prop :=
  (∀ p : Nat,
    scale rfb 4#3 p = scale rfb 0#3 p / 10 ∧ scale rfb 1#3 p = scale rfb 0#3 p / 100 ∧
    scale rfb 5#3 p = scale rfb 0#3 p / 1000 ∧ scale rfb 5#3 p = scale rfb 1#3 p / 10 ∧
    10 * scale rfb 4#3 p ≤ scale rfb 0#3 p ∧ scale rfb 0#3 p ≤ 10 * scale rfb 4#3 p + 9 ∧
    100 * scale rfb 1#3 p ≤ scale rfb 0#3 p ∧ scale rfb 0#3 p ≤ 100 * scale rfb 1#3 p + 99) ∧
  (∀ (f : Flags) (p q : Nat), p ≤ q → scale rfb f p ≤ scale rfb f q) ∧
  (∀ f : Flags, scale rfb f 0 = 0) ∧
  (∀ (f : Flags) (p : Nat), scale rfb (f ||| 2#3) p = scale rfb f p ∧ ovfOf rfb (f ||| 2#3) p = ovfOf rfb f p)

/-- R26, R140 (c): a distance fits its register; the largest is 146,153,442. -/
def Obligations.DistanceFitsItsRegister : Prop :=
  (∀ (f : Flags) (p : Word), (distWord rfb f p).toNat = scale rfb f p.toNat ∧ scale rfb f p.toNat ≤ 146153442) ∧
  scale rfb 0#3 (2 ^ 32 - 1) = 146153442

/-! ### The reference host -/

/-- R171: the source's expression gives bit `n` of every natural number, so each switch flag is its bit, and the flags
nibble is `(x >> 1) & 7`. -/
def Obligations.SwitchExpressionIsTheBit : Prop :=
  (∀ x n : Nat, bitByDifference x n = (x >>> n) &&& 1) ∧
  (∀ (sw : BitVec 10) (n : Nat), switchFlag sw n = sw.getLsbD n ∧ (hostFlags sw).toNat = (sw.toNat >>> 1) &&& 7)

/-- R178 to R180, R185 to R187: once both levels of an iteration are read, in either order, the host leaves Idle only
on exactly one pressed button, and what it then does is fixed by LoadMode and the button: a capture; the reset of the
extrema and of the selected slots of the current unit mode, which no other branch touches; the mode label and then,
for each selected slot in the order 1 to 5, its label and its stored word; or the extrema's sequence. -/
def Obligations.HostDispatchesOneButton : Prop :=
  ∀ (p : HostParams) (h : HostState) (buttonsFirst : Bool) (data : Word), h.doing = .idling buttonsFirst true →
    let sw : BitVec 10 := if buttonsFirst then data.extractLsb' 0 10 else h.sw
    let btn : BitVec 2 := if buttonsFirst then h.btn else data.extractLsb' 0 2
    let down := fun i => decide (btn.getLsbD i = p.pressedLevel)
    let meters := sw.getLsbD 1
    let reply := hostReply p h data
    let slotEntry : Fin 5 → Label → List Shown := fun k l =>
      if sw.getLsbD (5 + k.val) then [.label l, .stored (if meters then h.slotsM[k] else h.slotsCm[k])] else []
    hostCommand h = (if buttonsFirst then .inSw 0#32 else .inBtn 0#32) ∧ reply.sw = sw ∧ reply.btn = btn ∧
    (down 0 = down 1 → ∃ bf, reply.doing = .idling bf false) ∧
    (down 0 = true → down 1 = false → sw.getLsbD 4 = false → reply.doing = .measuring (!sw.getLsbD 0)) ∧
    (down 0 = false → down 1 = true → sw.getLsbD 4 = false →
      reply.doing = .releasing ∧ reply.highest = 0#32 ∧ reply.lowest = p.lowInit ∧
      ∀ k : Fin 5,
        reply.slotsCm[k] = (if meters = false ∧ sw.getLsbD (5 + k.val) = true then 0xFFFFFFFF#32 else h.slotsCm[k]) ∧
        reply.slotsM[k] = (if meters = true ∧ sw.getLsbD (5 + k.val) = true then 0xFFFFFFFF#32 else h.slotsM[k])) ∧
    (¬ (down 0 = false ∧ down 1 = true ∧ sw.getLsbD 4 = false) →
      reply.slotsCm = h.slotsCm ∧ reply.slotsM = h.slotsM ∧ reply.highest = h.highest ∧ reply.lowest = h.lowest) ∧
    (down 0 = true → down 1 = false → sw.getLsbD 4 = true →
      reply.doing = .fetching (.label (if meters then .m else .cm))
        (slotEntry 0 .sv1 ++ slotEntry 1 .sv2 ++ slotEntry 2 .sv3 ++ slotEntry 3 .sv4 ++ slotEntry 4 .sv5)) ∧
    (down 0 = false → down 1 = true → sw.getLsbD 4 = true →
      reply.doing = .fetching (.label .hi) [.composed h.highest, .label .lo, .composed h.lowest])

/-- R178, R188, R192: the first read of an Idle iteration is one of the two levels and keeps it; the release wait reads
the buttons until neither reads pressed, and then goes to Idle, and touches nothing else. -/
def Obligations.HostPollsItsLines : Prop :=
  ∀ (p : HostParams) (h : HostState) (data : Word),
    (∀ buttonsFirst, h.doing = .idling buttonsFirst false →
      hostCommand h = (if buttonsFirst then .inBtn 0#32 else .inSw 0#32) ∧
      hostReply p h data = (if buttonsFirst then { h with
          btn := data.extractLsb' 0 2
          doing := .idling buttonsFirst true }
        else { h with
          sw := data.extractLsb' 0 10
          doing := .idling buttonsFirst true })) ∧
    (h.doing = .releasing →
      let reply := hostReply p h data
      hostCommand h = .inBtn 0#32 ∧ reply.btn = data.extractLsb' 0 2 ∧ reply.sw = h.sw ∧
      reply.slotsCm = h.slotsCm ∧ reply.slotsM = h.slotsM ∧ reply.highest = h.highest ∧ reply.lowest = h.lowest ∧
      ((data.getLsbD 0 ≠ p.pressedLevel ∧ data.getLsbD 1 ≠ p.pressedLevel) →
        ∃ bf, reply.doing = .idling bf false) ∧
      ((data.getLsbD 0 = p.pressedLevel ∨ data.getLsbD 1 = p.pressedLevel) → reply.doing = .releasing))

/-- R181 to R184, R190: a capture step: a distance of 10000 or more shows ERR, any other is composed; the word fetched
goes to the display; an overflow reading changes neither extrema nor slots; any other updates the extrema in
centimeters without shift, and in the final capture the slots. That the final capture updates the extrema too is not
said by the source "in so many words" (R182, decision D32), and where the loop rereads the switches "is not said":
both are readings the model takes (log entry 15). -/
def Obligations.HostCaptureStep : Prop :=
  ∀ (p : HostParams) (h : HostState) (final : Bool) (d w : Word),
    (h.doing = .measuring final → hostCommand h = .meas (hostFlags h.sw) 0#32 ∧
      hostReply p h d = { h with doing := .wording final d }) ∧
    (h.doing = .wording final d →
      hostCommand h = (if 10000 ≤ d.toNat then .lit 0#32 else .cmp (hostFlags h.sw) d) ∧
      hostReply p h w = { h with doing := .presenting final d w }) ∧
    (h.doing = .presenting final d w → hostCommand h = .outHex w ∧
      (10000 ≤ d.toNat → hostReply p h 0#32 = { h with doing := if final then .releasing else .rereading }) ∧
      (d.toNat < 10000 →
        let h1 := if h.sw.getLsbD 1 = false ∧ h.sw.getLsbD 3 = false then h.updateExtrema p d else h
        hostReply p h 0#32 = { (if final then h1.saveSlots w else h1) with
          doing := if final then .releasing else .rereading })) ∧
    (h.doing = .rereading → hostCommand h = .inSw 0#32 ∧
      hostReply p h d = { h with
        sw := d.extractLsb' 0 10
        doing := .measuring (!d.getLsbD 0) })

/-- R183: one capture under each policy, strict on both sides, so that a tie changes nothing, and with nothing else
changed; and any number of them from the initial pair: whatever the policy, Highest is the maximum of 0 and the
captures; under `two_ifs` Lowest is the minimum of its initial value and the captures. -/
def Obligations.HostExtremaFollowThePolicy : Prop :=
  (∀ (p : HostParams) (h : HostState) (d : Word), p.policy = .twoIfs →
    h.updateExtrema p d = { h with
      highest := if h.highest.toNat < d.toNat then d else h.highest
      lowest := if d.toNat < h.lowest.toNat then d else h.lowest }) ∧
  (∀ (p : HostParams) (h : HostState) (d : Word), p.policy = .elseIf →
    h.updateExtrema p d =
      if h.highest.toNat < d.toNat then { h with highest := d }
      else if d.toNat < h.lowest.toNat then { h with lowest := d } else h) ∧
  (∀ (p : HostParams) (h : HostState) (ds : List Word), h.highest = 0#32 → h.lowest = p.lowInit →
    (ds.foldl (fun h d => h.updateExtrema p d) h).highest.toNat = (ds.map BitVec.toNat).foldl max 0 ∧
    (p.policy = .twoIfs →
      (ds.foldl (fun h d => h.updateExtrema p d) h).lowest.toNat =
        (ds.map BitVec.toNat).foldl min p.lowInit.toNat))

/-- R184, R185: a capture puts its word into every selected slot of the current unit mode and no other slot; a reset
with the same switches empties exactly those slots and puts both extrema to their initial values. -/
def Obligations.HostSlotsAreSelectedPerUnitMode : Prop :=
  ∀ (p : HostParams) (h : HostState) (w : Word) (u : UnitMode) (k : Fin 5),
    ((h.saveSlots w).slots u)[k] =
      (if u = (if h.sw.getLsbD 1 then .m else .cm) ∧ h.sw.getLsbD (5 + k.val) = true then w
        else (h.slots u)[k]) ∧
    ((h.saveReset p).slots u)[k] =
      (if u = (if h.sw.getLsbD 1 then .m else .cm) ∧ h.sw.getLsbD (5 + k.val) = true then 0xFFFFFFFF#32
        else (h.slots u)[k]) ∧
    (h.saveReset p).highest = 0#32 ∧ (h.saveReset p).lowest = p.lowInit ∧
    h.slots .cm = h.slotsCm ∧ h.slots .m = h.slotsM

/-- R186, R187, R189, R91: the entries of a display sequence run one by one: a label is fetched with LIT and its index
of R91, shown, and held 2 seconds; a value is composed, shown and held 3 seconds; a stored word is shown as it is and
held 3 seconds; the end of the sequence is the release wait. That a value is composed with the current flags is this
spec's reading of R187 (decision D32), which the model takes (log entry 15). -/
def Obligations.HostRunsTimedSequences : Prop :=
  (∀ (p : HostParams) (h : HostState) (x : Shown) (rest : List Shown) (w : Word), h.doing = showFrom (x :: rest) →
    let place := fun (h1 : HostState) (v : Word) (secs : Word) =>
      hostCommand h1 = .outHex v ∧ hostCommand (hostReply p h1 0#32) = .dly secs ∧
      hostReply p (hostReply p h1 0#32) 0#32 = { h with doing := showFrom rest }
    match x with
    | .label l =>
      hostCommand h = .lit (match l with
        | .err => 0#32
        | .cm => 1#32
        | .m => 2#32
        | .sv1 => 3#32
        | .sv2 => 4#32
        | .sv3 => 5#32
        | .sv4 => 6#32
        | .sv5 => 7#32
        | .hi => 8#32
        | .lo => 9#32
        | .empty => 10#32) ∧ place (hostReply p h w) w 2#32
    | .composed v => hostCommand h = .cmp (hostFlags h.sw) v ∧ place (hostReply p h w) w 3#32
    | .stored v => place h v 3#32) ∧
  showFrom [] = .releasing

/-- R191: the host never writes TRIG or LED, never uses CONV or ENC or reads another port than BTN and SW, never
issues a rejected command, and asks no delay other than 2 or 3 seconds. -/
def Obligations.HostIssuesOnlyItsCommands : Prop :=
  ∀ h : HostState,
    (match hostCommand h with
      | .meas _ _ => True
      | .cmp _ _ => True
      | .lit a => a.toNat ≤ 10
      | .dly a => a = 2#32 ∨ a = 3#32
      | .inBtn _ => True
      | .inSw _ => True
      | .outHex _ => True
      | .enc _ => False
      | .conv _ _ => False
      | .inTick _ => False
      | .inEcho _ => False
      | .inTrig _ => False
      | .inLed _ => False
      | .inHex _ => False
      | .inPulse _ => False
      | .inDist _ => False
      | .inStatus _ => False
      | .outTrig _ => False
      | .outLed _ => False) ∧
    ¬ IllegalCommand (encode (hostCommand h))

/-- R35, R60, R175, R191, R235: every tick of block and host, from every state that meets it, keeps the port's
discipline, and no command of the host is ever rejected. -/
def Obligations.SystemKeepsThePortDiscipline : Prop :=
  ∀ (p : HostParams) (y z : System), y.Inv → y.step p = .next z → z.Inv

/-- R43, R177: the system at its start of day meets the port's discipline. -/
def Obligations.SystemStartMeetsThePortDiscipline : Prop :=
  ∀ p : HostParams, (System.start p).Inv

/-- R221, R222, R42: a reset of the block leaves the host's slots and extrema as they are, and the host no longer waits
for the abandoned command. That it goes on from Idle is the model's choice (log entry 17) and not stated. -/
def Obligations.BlockResetLeavesTheHostsMemory : Prop :=
  ∀ (p : HostParams) (y : System), y.block.lines.rst = true →
    ∃ z, y.step p = .next z ∧ z.host.slotsCm = (y.takeResponse p).slotsCm ∧
      z.host.slotsM = (y.takeResponse p).slotsM ∧ z.host.highest = (y.takeResponse p).highest ∧
      z.host.lowest = (y.takeResponse p).lowest ∧ z.host.waiting = false
end

