-- ==== Sys2Proof/Laws/State.lean ====
section
/-!
SUPPORT. What each shared update of the state leaves in each field: one lemma per field and update, so that no proof
unfolds a record update.
-/
namespace Sys2Proof.Machine

/-! ### noResponse -/

@[simp] theorem State.noResponse_tick (s : State) : s.noResponse.tick = s.tick := rfl
@[simp] theorem State.noResponse_trig (s : State) : s.noResponse.trig = s.trig := rfl
@[simp] theorem State.noResponse_led (s : State) : s.noResponse.led = s.led := rfl
@[simp] theorem State.noResponse_hex (s : State) : s.noResponse.hex = s.hex := rfl
@[simp] theorem State.noResponse_pulse (s : State) : s.noResponse.pulse = s.pulse := rfl
@[simp] theorem State.noResponse_dist (s : State) : s.noResponse.dist = s.dist := rfl
@[simp] theorem State.noResponse_ovf (s : State) : s.noResponse.ovf = s.ovf := rfl
@[simp] theorem State.noResponse_cerr (s : State) : s.noResponse.cerr = s.cerr := rfl
@[simp] theorem State.noResponse_phase (s : State) : s.noResponse.phase = s.phase := rfl
@[simp] theorem State.noResponse_t0 (s : State) : s.noResponse.t0 = s.t0 := rfl
@[simp] theorem State.noResponse_f (s : State) : s.noResponse.f = s.f := rfl
@[simp] theorem State.noResponse_nt (s : State) : s.noResponse.nt = s.nt := rfl
@[simp] theorem State.noResponse_rspv (s : State) : s.noResponse.rspv = false := rfl
@[simp] theorem State.noResponse_rspd (s : State) : s.noResponse.rspd = s.rspd := rfl
@[simp] theorem State.noResponse_lines (s : State) : s.noResponse.lines = s.lines := rfl
@[simp] theorem State.noResponse_coming (s : State) : s.noResponse.coming = s.coming := rfl
@[simp] theorem State.noResponse_draws (s : State) : s.noResponse.draws = s.draws := rfl

/-! ### respond -/

@[simp] theorem State.respond_tick (s : State) (e : Bool) (d : Word) : (s.respond e d).tick = s.tick := rfl
@[simp] theorem State.respond_trig (s : State) (e : Bool) (d : Word) : (s.respond e d).trig = s.trig := rfl
@[simp] theorem State.respond_led (s : State) (e : Bool) (d : Word) : (s.respond e d).led = s.led := rfl
@[simp] theorem State.respond_hex (s : State) (e : Bool) (d : Word) : (s.respond e d).hex = s.hex := rfl
@[simp] theorem State.respond_pulse (s : State) (e : Bool) (d : Word) : (s.respond e d).pulse = s.pulse := rfl
@[simp] theorem State.respond_dist (s : State) (e : Bool) (d : Word) : (s.respond e d).dist = s.dist := rfl
@[simp] theorem State.respond_ovf (s : State) (e : Bool) (d : Word) : (s.respond e d).ovf = s.ovf := rfl
@[simp] theorem State.respond_cerr (s : State) (e : Bool) (d : Word) : (s.respond e d).cerr = s.cerr := rfl
@[simp] theorem State.respond_phase (s : State) (e : Bool) (d : Word) : (s.respond e d).phase = s.phase := rfl
@[simp] theorem State.respond_t0 (s : State) (e : Bool) (d : Word) : (s.respond e d).t0 = s.t0 := rfl
@[simp] theorem State.respond_f (s : State) (e : Bool) (d : Word) : (s.respond e d).f = s.f := rfl
@[simp] theorem State.respond_nt (s : State) (e : Bool) (d : Word) : (s.respond e d).nt = s.nt := rfl
@[simp] theorem State.respond_rspv (s : State) (e : Bool) (d : Word) : (s.respond e d).rspv = true := rfl
@[simp] theorem State.respond_rspd (s : State) (e : Bool) (d : Word) : (s.respond e d).rspd = responseWord e d := rfl
@[simp] theorem State.respond_lines (s : State) (e : Bool) (d : Word) : (s.respond e d).lines = s.lines := rfl
@[simp] theorem State.respond_coming (s : State) (e : Bool) (d : Word) : (s.respond e d).coming = s.coming := rfl
@[simp] theorem State.respond_draws (s : State) (e : Bool) (d : Word) : (s.respond e d).draws = s.draws := rfl

/-! ### raiseCommandError -/

@[simp] theorem State.raiseCommandError_tick (s : State) (c : CommandError) : (s.raiseCommandError c).tick = s.tick := rfl
@[simp] theorem State.raiseCommandError_trig (s : State) (c : CommandError) : (s.raiseCommandError c).trig = s.trig := rfl
@[simp] theorem State.raiseCommandError_led (s : State) (c : CommandError) : (s.raiseCommandError c).led = s.led := rfl
@[simp] theorem State.raiseCommandError_hex (s : State) (c : CommandError) : (s.raiseCommandError c).hex = s.hex := rfl
@[simp] theorem State.raiseCommandError_pulse (s : State) (c : CommandError) : (s.raiseCommandError c).pulse = s.pulse := rfl
@[simp] theorem State.raiseCommandError_dist (s : State) (c : CommandError) : (s.raiseCommandError c).dist = s.dist := rfl
@[simp] theorem State.raiseCommandError_ovf (s : State) (c : CommandError) : (s.raiseCommandError c).ovf = s.ovf := rfl
@[simp] theorem State.raiseCommandError_cerr (s : State) (c : CommandError) : (s.raiseCommandError c).cerr = true := rfl
@[simp] theorem State.raiseCommandError_phase (s : State) (c : CommandError) : (s.raiseCommandError c).phase = s.phase := rfl
@[simp] theorem State.raiseCommandError_t0 (s : State) (c : CommandError) : (s.raiseCommandError c).t0 = s.t0 := rfl
@[simp] theorem State.raiseCommandError_f (s : State) (c : CommandError) : (s.raiseCommandError c).f = s.f := rfl
@[simp] theorem State.raiseCommandError_nt (s : State) (c : CommandError) : (s.raiseCommandError c).nt = s.nt := rfl
@[simp] theorem State.raiseCommandError_rspv (s : State) (c : CommandError) : (s.raiseCommandError c).rspv = true := rfl
@[simp] theorem State.raiseCommandError_rspd (s : State) (c : CommandError) : (s.raiseCommandError c).rspd = responseWord true 0#32 := rfl
@[simp] theorem State.raiseCommandError_lines (s : State) (c : CommandError) : (s.raiseCommandError c).lines = s.lines := rfl
@[simp] theorem State.raiseCommandError_coming (s : State) (c : CommandError) : (s.raiseCommandError c).coming = s.coming := rfl
@[simp] theorem State.raiseCommandError_draws (s : State) (c : CommandError) : (s.raiseCommandError c).draws = s.draws := rfl

/-! ### countTick -/

@[simp] theorem State.countTick_tick (s : State) : s.countTick.tick = s.tick + 1#32 := rfl
@[simp] theorem State.countTick_trig (s : State) : s.countTick.trig = s.trig := rfl
@[simp] theorem State.countTick_led (s : State) : s.countTick.led = s.led := rfl
@[simp] theorem State.countTick_hex (s : State) : s.countTick.hex = s.hex := rfl
@[simp] theorem State.countTick_pulse (s : State) : s.countTick.pulse = s.pulse := rfl
@[simp] theorem State.countTick_dist (s : State) : s.countTick.dist = s.dist := rfl
@[simp] theorem State.countTick_ovf (s : State) : s.countTick.ovf = s.ovf := rfl
@[simp] theorem State.countTick_cerr (s : State) : s.countTick.cerr = s.cerr := rfl
@[simp] theorem State.countTick_phase (s : State) : s.countTick.phase = s.phase := rfl
@[simp] theorem State.countTick_t0 (s : State) : s.countTick.t0 = s.t0 := rfl
@[simp] theorem State.countTick_f (s : State) : s.countTick.f = s.f := rfl
@[simp] theorem State.countTick_nt (s : State) : s.countTick.nt = s.nt := rfl
@[simp] theorem State.countTick_rspv (s : State) : s.countTick.rspv = s.rspv := rfl
@[simp] theorem State.countTick_rspd (s : State) : s.countTick.rspd = s.rspd := rfl
@[simp] theorem State.countTick_lines (s : State) : s.countTick.lines = s.lines := rfl
@[simp] theorem State.countTick_coming (s : State) : s.countTick.coming = s.coming := rfl
@[simp] theorem State.countTick_draws (s : State) : s.countTick.draws = s.draws := rfl

/-! ### drawLines -/

@[simp] theorem State.drawLines_tick (s : State) : s.drawLines.tick = s.tick := rfl
@[simp] theorem State.drawLines_trig (s : State) : s.drawLines.trig = s.trig := rfl
@[simp] theorem State.drawLines_led (s : State) : s.drawLines.led = s.led := rfl
@[simp] theorem State.drawLines_hex (s : State) : s.drawLines.hex = s.hex := rfl
@[simp] theorem State.drawLines_pulse (s : State) : s.drawLines.pulse = s.pulse := rfl
@[simp] theorem State.drawLines_dist (s : State) : s.drawLines.dist = s.dist := rfl
@[simp] theorem State.drawLines_ovf (s : State) : s.drawLines.ovf = s.ovf := rfl
@[simp] theorem State.drawLines_cerr (s : State) : s.drawLines.cerr = s.cerr := rfl
@[simp] theorem State.drawLines_phase (s : State) : s.drawLines.phase = s.phase := rfl
@[simp] theorem State.drawLines_t0 (s : State) : s.drawLines.t0 = s.t0 := rfl
@[simp] theorem State.drawLines_f (s : State) : s.drawLines.f = s.f := rfl
@[simp] theorem State.drawLines_nt (s : State) : s.drawLines.nt = s.nt := rfl
@[simp] theorem State.drawLines_rspv (s : State) : s.drawLines.rspv = s.rspv := rfl
@[simp] theorem State.drawLines_rspd (s : State) : s.drawLines.rspd = s.rspd := rfl
@[simp] theorem State.drawLines_lines (s : State) : s.drawLines.lines = s.coming.headD (Config.freeLines s.draws) := rfl
@[simp] theorem State.drawLines_coming (s : State) : s.drawLines.coming = s.coming.tail := rfl
@[simp] theorem State.drawLines_draws (s : State) : s.drawLines.draws = if s.coming.isEmpty then s.draws + 1 else s.draws := rfl

/-! ### advance -/

@[simp] theorem State.advance_tick (s : State) : s.advance.tick = s.tick + 1#32 := rfl
@[simp] theorem State.advance_trig (s : State) : s.advance.trig = s.trig := rfl
@[simp] theorem State.advance_led (s : State) : s.advance.led = s.led := rfl
@[simp] theorem State.advance_hex (s : State) : s.advance.hex = s.hex := rfl
@[simp] theorem State.advance_pulse (s : State) : s.advance.pulse = s.pulse := rfl
@[simp] theorem State.advance_dist (s : State) : s.advance.dist = s.dist := rfl
@[simp] theorem State.advance_ovf (s : State) : s.advance.ovf = s.ovf := rfl
@[simp] theorem State.advance_cerr (s : State) : s.advance.cerr = s.cerr := rfl
@[simp] theorem State.advance_phase (s : State) : s.advance.phase = s.phase := rfl
@[simp] theorem State.advance_t0 (s : State) : s.advance.t0 = s.t0 := rfl
@[simp] theorem State.advance_f (s : State) : s.advance.f = s.f := rfl
@[simp] theorem State.advance_nt (s : State) : s.advance.nt = s.nt := rfl
@[simp] theorem State.advance_rspv (s : State) : s.advance.rspv = s.rspv := rfl
@[simp] theorem State.advance_rspd (s : State) : s.advance.rspd = s.rspd := rfl
@[simp] theorem State.advance_lines (s : State) : s.advance.lines = s.coming.headD (Config.freeLines s.draws) := rfl
@[simp] theorem State.advance_coming (s : State) : s.advance.coming = s.coming.tail := rfl
@[simp] theorem State.advance_draws (s : State) : s.advance.draws = if s.coming.isEmpty then s.draws + 1 else s.draws := rfl

/-! ### resetRegisters -/

@[simp] theorem State.resetRegisters_tick (s : State) : s.resetRegisters.tick = 0#32 := rfl
@[simp] theorem State.resetRegisters_trig (s : State) : s.resetRegisters.trig = false := rfl
@[simp] theorem State.resetRegisters_led (s : State) : s.resetRegisters.led = 0#10 := rfl
@[simp] theorem State.resetRegisters_hex (s : State) : s.resetRegisters.hex = 0xFFFFFFFF#32 := rfl
@[simp] theorem State.resetRegisters_pulse (s : State) : s.resetRegisters.pulse = 0#32 := rfl
@[simp] theorem State.resetRegisters_dist (s : State) : s.resetRegisters.dist = 0#32 := rfl
@[simp] theorem State.resetRegisters_ovf (s : State) : s.resetRegisters.ovf = false := rfl
@[simp] theorem State.resetRegisters_cerr (s : State) : s.resetRegisters.cerr = false := rfl
@[simp] theorem State.resetRegisters_phase (s : State) : s.resetRegisters.phase = .ready := rfl
@[simp] theorem State.resetRegisters_t0 (s : State) : s.resetRegisters.t0 = 0#32 := rfl
@[simp] theorem State.resetRegisters_f (s : State) : s.resetRegisters.f = 0#3 := rfl
@[simp] theorem State.resetRegisters_nt (s : State) : s.resetRegisters.nt = 0#32 := rfl
@[simp] theorem State.resetRegisters_rspv (s : State) : s.resetRegisters.rspv = false := rfl
@[simp] theorem State.resetRegisters_rspd (s : State) : s.resetRegisters.rspd = 0#33 := rfl
@[simp] theorem State.resetRegisters_lines (s : State) : s.resetRegisters.lines = s.lines := rfl
@[simp] theorem State.resetRegisters_coming (s : State) : s.resetRegisters.coming = s.coming := rfl
@[simp] theorem State.resetRegisters_draws (s : State) : s.resetRegisters.draws = s.draws := rfl

/-! ### present -/

@[simp] theorem State.present_tick (s : State) (w : CmdWord) : (s.present w).tick = s.tick := rfl
@[simp] theorem State.present_trig (s : State) (w : CmdWord) : (s.present w).trig = s.trig := rfl
@[simp] theorem State.present_led (s : State) (w : CmdWord) : (s.present w).led = s.led := rfl
@[simp] theorem State.present_hex (s : State) (w : CmdWord) : (s.present w).hex = s.hex := rfl
@[simp] theorem State.present_pulse (s : State) (w : CmdWord) : (s.present w).pulse = s.pulse := rfl
@[simp] theorem State.present_dist (s : State) (w : CmdWord) : (s.present w).dist = s.dist := rfl
@[simp] theorem State.present_ovf (s : State) (w : CmdWord) : (s.present w).ovf = s.ovf := rfl
@[simp] theorem State.present_cerr (s : State) (w : CmdWord) : (s.present w).cerr = s.cerr := rfl
@[simp] theorem State.present_phase (s : State) (w : CmdWord) : (s.present w).phase = .ready := rfl
@[simp] theorem State.present_t0 (s : State) (w : CmdWord) : (s.present w).t0 = s.t0 := rfl
@[simp] theorem State.present_f (s : State) (w : CmdWord) : (s.present w).f = s.f := rfl
@[simp] theorem State.present_nt (s : State) (w : CmdWord) : (s.present w).nt = s.nt := rfl
@[simp] theorem State.present_rspv (s : State) (w : CmdWord) : (s.present w).rspv = s.rspv := rfl
@[simp] theorem State.present_rspd (s : State) (w : CmdWord) : (s.present w).rspd = s.rspd := rfl
@[simp] theorem State.present_lines (s : State) (w : CmdWord) : (s.present w).lines = { s.lines with rst := false, cmdValid := true, cmd := w } := rfl
@[simp] theorem State.present_coming (s : State) (w : CmdWord) : (s.present w).coming = s.coming := rfl
@[simp] theorem State.present_draws (s : State) (w : CmdWord) : (s.present w).draws = s.draws := rfl

/-! ### writeTrig -/

@[simp] theorem State.writeTrig_tick (s : State) (a : Word) : (s.writeTrig a).tick = s.tick := rfl
@[simp] theorem State.writeTrig_trig (s : State) (a : Word) : (s.writeTrig a).trig = trigBit a := rfl
@[simp] theorem State.writeTrig_led (s : State) (a : Word) : (s.writeTrig a).led = s.led := rfl
@[simp] theorem State.writeTrig_hex (s : State) (a : Word) : (s.writeTrig a).hex = s.hex := rfl
@[simp] theorem State.writeTrig_pulse (s : State) (a : Word) : (s.writeTrig a).pulse = s.pulse := rfl
@[simp] theorem State.writeTrig_dist (s : State) (a : Word) : (s.writeTrig a).dist = s.dist := rfl
@[simp] theorem State.writeTrig_ovf (s : State) (a : Word) : (s.writeTrig a).ovf = s.ovf := rfl
@[simp] theorem State.writeTrig_cerr (s : State) (a : Word) : (s.writeTrig a).cerr = s.cerr := rfl
@[simp] theorem State.writeTrig_phase (s : State) (a : Word) : (s.writeTrig a).phase = s.phase := rfl
@[simp] theorem State.writeTrig_t0 (s : State) (a : Word) : (s.writeTrig a).t0 = s.t0 := rfl
@[simp] theorem State.writeTrig_f (s : State) (a : Word) : (s.writeTrig a).f = s.f := rfl
@[simp] theorem State.writeTrig_nt (s : State) (a : Word) : (s.writeTrig a).nt = s.nt := rfl
@[simp] theorem State.writeTrig_rspv (s : State) (a : Word) : (s.writeTrig a).rspv = s.rspv := rfl
@[simp] theorem State.writeTrig_rspd (s : State) (a : Word) : (s.writeTrig a).rspd = s.rspd := rfl
@[simp] theorem State.writeTrig_lines (s : State) (a : Word) : (s.writeTrig a).lines = s.lines := rfl
@[simp] theorem State.writeTrig_coming (s : State) (a : Word) : (s.writeTrig a).coming = s.coming := rfl
@[simp] theorem State.writeTrig_draws (s : State) (a : Word) : (s.writeTrig a).draws = s.draws := rfl

/-! ### writeLed -/

@[simp] theorem State.writeLed_tick (s : State) (a : Word) : (s.writeLed a).tick = s.tick := rfl
@[simp] theorem State.writeLed_trig (s : State) (a : Word) : (s.writeLed a).trig = s.trig := rfl
@[simp] theorem State.writeLed_led (s : State) (a : Word) : (s.writeLed a).led = ledBits a := rfl
@[simp] theorem State.writeLed_hex (s : State) (a : Word) : (s.writeLed a).hex = s.hex := rfl
@[simp] theorem State.writeLed_pulse (s : State) (a : Word) : (s.writeLed a).pulse = s.pulse := rfl
@[simp] theorem State.writeLed_dist (s : State) (a : Word) : (s.writeLed a).dist = s.dist := rfl
@[simp] theorem State.writeLed_ovf (s : State) (a : Word) : (s.writeLed a).ovf = s.ovf := rfl
@[simp] theorem State.writeLed_cerr (s : State) (a : Word) : (s.writeLed a).cerr = s.cerr := rfl
@[simp] theorem State.writeLed_phase (s : State) (a : Word) : (s.writeLed a).phase = s.phase := rfl
@[simp] theorem State.writeLed_t0 (s : State) (a : Word) : (s.writeLed a).t0 = s.t0 := rfl
@[simp] theorem State.writeLed_f (s : State) (a : Word) : (s.writeLed a).f = s.f := rfl
@[simp] theorem State.writeLed_nt (s : State) (a : Word) : (s.writeLed a).nt = s.nt := rfl
@[simp] theorem State.writeLed_rspv (s : State) (a : Word) : (s.writeLed a).rspv = s.rspv := rfl
@[simp] theorem State.writeLed_rspd (s : State) (a : Word) : (s.writeLed a).rspd = s.rspd := rfl
@[simp] theorem State.writeLed_lines (s : State) (a : Word) : (s.writeLed a).lines = s.lines := rfl
@[simp] theorem State.writeLed_coming (s : State) (a : Word) : (s.writeLed a).coming = s.coming := rfl
@[simp] theorem State.writeLed_draws (s : State) (a : Word) : (s.writeLed a).draws = s.draws := rfl

/-! ### writeHex -/

@[simp] theorem State.writeHex_tick (s : State) (a : Word) : (s.writeHex a).tick = s.tick := rfl
@[simp] theorem State.writeHex_trig (s : State) (a : Word) : (s.writeHex a).trig = s.trig := rfl
@[simp] theorem State.writeHex_led (s : State) (a : Word) : (s.writeHex a).led = s.led := rfl
@[simp] theorem State.writeHex_hex (s : State) (a : Word) : (s.writeHex a).hex = a := rfl
@[simp] theorem State.writeHex_pulse (s : State) (a : Word) : (s.writeHex a).pulse = s.pulse := rfl
@[simp] theorem State.writeHex_dist (s : State) (a : Word) : (s.writeHex a).dist = s.dist := rfl
@[simp] theorem State.writeHex_ovf (s : State) (a : Word) : (s.writeHex a).ovf = s.ovf := rfl
@[simp] theorem State.writeHex_cerr (s : State) (a : Word) : (s.writeHex a).cerr = s.cerr := rfl
@[simp] theorem State.writeHex_phase (s : State) (a : Word) : (s.writeHex a).phase = s.phase := rfl
@[simp] theorem State.writeHex_t0 (s : State) (a : Word) : (s.writeHex a).t0 = s.t0 := rfl
@[simp] theorem State.writeHex_f (s : State) (a : Word) : (s.writeHex a).f = s.f := rfl
@[simp] theorem State.writeHex_nt (s : State) (a : Word) : (s.writeHex a).nt = s.nt := rfl
@[simp] theorem State.writeHex_rspv (s : State) (a : Word) : (s.writeHex a).rspv = s.rspv := rfl
@[simp] theorem State.writeHex_rspd (s : State) (a : Word) : (s.writeHex a).rspd = s.rspd := rfl
@[simp] theorem State.writeHex_lines (s : State) (a : Word) : (s.writeHex a).lines = s.lines := rfl
@[simp] theorem State.writeHex_coming (s : State) (a : Word) : (s.writeHex a).coming = s.coming := rfl
@[simp] theorem State.writeHex_draws (s : State) (a : Word) : (s.writeHex a).draws = s.draws := rfl

/-! ### finishReading -/

@[simp] theorem State.finishReading_tick (s : State) (f : Flags) (p : Word) : (s.finishReading f p).tick = s.tick := rfl
@[simp] theorem State.finishReading_trig (s : State) (f : Flags) (p : Word) : (s.finishReading f p).trig = s.trig := rfl
@[simp] theorem State.finishReading_led (s : State) (f : Flags) (p : Word) : (s.finishReading f p).led = ledNext rfb s.led f p.toNat := rfl
@[simp] theorem State.finishReading_hex (s : State) (f : Flags) (p : Word) : (s.finishReading f p).hex = s.hex := rfl
@[simp] theorem State.finishReading_pulse (s : State) (f : Flags) (p : Word) : (s.finishReading f p).pulse = p := rfl
@[simp] theorem State.finishReading_dist (s : State) (f : Flags) (p : Word) : (s.finishReading f p).dist = distWord rfb f p := rfl
@[simp] theorem State.finishReading_ovf (s : State) (f : Flags) (p : Word) : (s.finishReading f p).ovf = ovfOf rfb f p.toNat := rfl
@[simp] theorem State.finishReading_cerr (s : State) (f : Flags) (p : Word) : (s.finishReading f p).cerr = s.cerr := rfl
@[simp] theorem State.finishReading_phase (s : State) (f : Flags) (p : Word) : (s.finishReading f p).phase = s.phase := rfl
@[simp] theorem State.finishReading_t0 (s : State) (f : Flags) (p : Word) : (s.finishReading f p).t0 = s.t0 := rfl
@[simp] theorem State.finishReading_f (s : State) (f : Flags) (p : Word) : (s.finishReading f p).f = s.f := rfl
@[simp] theorem State.finishReading_nt (s : State) (f : Flags) (p : Word) : (s.finishReading f p).nt = s.nt := rfl
@[simp] theorem State.finishReading_rspv (s : State) (f : Flags) (p : Word) : (s.finishReading f p).rspv = true := rfl
@[simp] theorem State.finishReading_rspd (s : State) (f : Flags) (p : Word) : (s.finishReading f p).rspd = responseWord false (distWord rfb f p) := rfl
@[simp] theorem State.finishReading_lines (s : State) (f : Flags) (p : Word) : (s.finishReading f p).lines = s.lines := rfl
@[simp] theorem State.finishReading_coming (s : State) (f : Flags) (p : Word) : (s.finishReading f p).coming = s.coming := rfl
@[simp] theorem State.finishReading_draws (s : State) (f : Flags) (p : Word) : (s.finishReading f p).draws = s.draws := rfl

end Sys2Proof.Machine
end

