-- ==== Sys2Proof/Laws/Ops.lean ====
section
/-!
SUPPORT. What the shared operations do: the response word's two parts, the environment's levels along the ticks, the
two conditions of acceptance, and what a rejected word and a tick of reset leave.
-/
namespace Sys2Proof.Machine

/-- Bit 32 of a response word is err (R35). -/
theorem responseWord_err (err : Bool) (data : Word) : (responseWord err data).getLsbD 32 = err := by
  cases err <;> simp [responseWord]

/-- Bits 31:0 of a response word are the data (R35). -/
theorem responseWord_data (err : Bool) (data : Word) : (responseWord err data).extractLsb' 0 32 = data := by
  apply BitVec.eq_of_getLsbD_eq
  intro i hi
  simp [responseWord, hi, show i < 33 by omega]

/-- A response without error is the data in 33 bits (R76). -/
theorem responseWord_ok (data : Word) : responseWord false data = BitVec.ofNat 33 data.toNat := by
  simp [responseWord, BitVec.ofNat_toNat]

/-- The levels `k` ticks after this one's tick end are those `k + 1` ticks from now. -/
theorem State.linesAt_drawLines (s : State) (k : Nat) : s.drawLines.linesAt k = s.linesAt (k + 1) := by
  cases k with
  | zero => cases h : s.coming <;> simp [State.linesAt, h]
  | succ k =>
    cases h : s.coming with
    | nil => simp [State.linesAt, h, Nat.add_left_comm, Nat.add_comm]
    | cons l rest => simp [State.linesAt, h]

/-- Only the three environment fields decide the levels. -/
theorem State.linesAt_congr {s t : State} (h1 : t.lines = s.lines) (h2 : t.coming = s.coming)
    (h3 : t.draws = s.draws) (k : Nat) : t.linesAt k = s.linesAt k := by
  cases k <;> simp [State.linesAt, h1, h2, h3]

@[simp] theorem State.linesAt_zero (s : State) : s.linesAt 0 = s.lines := rfl

/-- Acceptance in the three conditions of R35. -/
theorem State.accepts_iff (s : State) :
    s.accepts = true ↔ s.phase = .ready ∧ s.lines.rst = false ∧ s.lines.cmdValid = true := by
  simp [State.accepts, State.cmdReady, and_assoc]

/-- What the accepted word decodes to is the accepted operation, and the other way round. -/
theorem State.acceptedInstr_eq_some {s : State} {i : Instr} :
    s.acceptedInstr = some i ↔ s.accepts = true ∧ decode s.lines.cmd = .ok i := by
  unfold State.acceptedInstr
  split
  · cases decode s.lines.cmd <;> simp_all [Except.toOption]
  · simp_all

/-- A rejected word leaves every field but CERR and the response (R206), whatever the cause. -/
theorem State.rejectWord_of_error {s : State} {e : CommandError} (h : decode s.lines.cmd = .error e) :
    s.rejectWord = { s with cerr := true, rspv := true, rspd := 0x100000000#33 } := by
  unfold State.rejectWord
  rw [h]
  rfl

end Sys2Proof.Machine
end

