-- ==== Sys2Proof/Laws/Data.lean ====
section
/-!
SUPPORT. The data functions as the plain arithmetic of Safety.lean: the digit patterns and the composed word, the
distance, the overflow flag and the LED word, and what a finished reading leaves.
-/
namespace Sys2Proof.Machine

theorem answered_eq (s : State) (d : Word) : s.respond false d = s.answered d.toNat := by
  simp [State.respond, State.answered, responseWord_ok, Nat.mod_eq_of_lt d.isLt]

theorem toNat_zext32_byte (b : Byte) : (zext32 b).toNat = b.toNat := by
  simp only [zext32, BitVec.toNat_setWidth]
  omega

/-- R100's table, entry by entry. -/
theorem toNat_digitPattern (d : Nat) : (digitPattern rfb d).toNat = patternOf d := by
  unfold patternOf digitPattern rfb
  match d with
  | 0 => rfl
  | 1 => rfl
  | 2 => rfl
  | 3 => rfl
  | 4 => rfl
  | 5 => rfl
  | 6 => rfl
  | 7 => rfl
  | 8 => rfl
  | 9 => rfl
  | n + 10 => simp

/-- Taking the point's 128 off never borrows (R87). -/
theorem toNat_withPoint (d : Nat) : (withPoint (digitPattern rfb d)).toNat = patternOf d - 128 := by
  unfold patternOf digitPattern rfb withPoint
  match d with
  | 0 => rfl
  | 1 => rfl
  | 2 => rfl
  | 3 => rfl
  | 4 => rfl
  | 5 => rfl
  | 6 => rfl
  | 7 => rfl
  | 8 => rfl
  | 9 => rfl
  | n + 10 => simp

/-- Four bytes packed by shifts are their sum at their weights (R86). -/
theorem toNat_packBytes (a b c d : Byte) :
    ((zext32 a <<< 24) ||| (zext32 b <<< 16) ||| (zext32 c <<< 8) ||| zext32 d).toNat =
      a.toNat * 2 ^ 24 + b.toNat * 2 ^ 16 + c.toNat * 2 ^ 8 + d.toNat := by
  have ha := a.isLt
  have hb := b.isLt
  have hc := c.isLt
  have hd := d.isLt
  have join : ∀ x y n : Nat, y < 2 ^ n → x * 2 ^ n ||| y = x * 2 ^ n + y := fun x y n h => by
    rw [← Nat.shiftLeft_eq, ← Nat.shiftLeft_add_eq_or_of_lt h]
  simp only [BitVec.toNat_or, BitVec.toNat_shiftLeft, toNat_zext32_byte, Nat.shiftLeft_eq]
  rw [Nat.mod_eq_of_lt (by omega), Nat.mod_eq_of_lt (by omega), Nat.mod_eq_of_lt (by omega),
    join a.toNat _ 24 (by omega),
    show a.toNat * 2 ^ 24 + b.toNat * 2 ^ 16 = (a.toNat * 2 ^ 8 + b.toNat) * 2 ^ 16 by omega,
    join _ _ 16 (by omega),
    show (a.toNat * 2 ^ 8 + b.toNat) * 2 ^ 16 + c.toNat * 2 ^ 8 =
      (a.toNat * 2 ^ 16 + b.toNat * 2 ^ 8 + c.toNat) * 2 ^ 8 by omega,
    join _ _ 8 (by omega)]

/-- R103 as a number. -/
theorem toNat_compose (v : Nat) (dp : Bool) : (compose rfb v dp).toNat = composedNumber v dp := by
  unfold compose composedNumber
  rw [toNat_packBytes]
  cases dp <;> simp [toNat_digitPattern, toNat_withPoint, digitAt]

/-- R107's words as numbers. -/
theorem toNat_literalWord {a : Word} (h : a.toNat ≤ 10) : (literalWord a).toNat = literalNumber a.toNat := by
  have all : ∀ n : Fin 11, (literalWords.getD n.val 0#32).toNat = literalNumber n.val := by decide
  exact all ⟨a.toNat, by omega⟩

/-- The divisor is one of 10^6, 10^7, 10^8, 10^9 (R140 c). -/
theorem denominatorOf_cases (f : Flags) : ∃ d ∈ [1, 10, 100, 1000], denominatorOf f = 1000000 * d := by
  unfold denominatorOf
  split <;> split <;> simp

theorem denominatorOf_ge (f : Flags) : 1000000 ≤ denominatorOf f := by
  unfold denominatorOf
  split <;> split <;> omega

theorem readingNum_eq (p : Nat) : readingNum rfb p = p * 34029 := rfl

theorem readingDen_eq (f : Flags) : readingDen rfb f = denominatorOf f := rfl

theorem scale_eq (f : Flags) (p : Nat) : scale rfb f p = distanceOf f p := rfl

theorem distWord_eq (f : Flags) (p : Word) : distWord rfb f p = BitVec.ofNat 32 (distanceOf f p.toNat) := rfl

/-- The largest distance (R26). -/
theorem distanceOf_le (f : Flags) {p : Nat} (h : p < 2 ^ 32) : distanceOf f p ≤ 146153442 := by
  calc p * 34029 / denominatorOf f ≤ p * 34029 / 1000000 :=
      Nat.div_le_div_left (denominatorOf_ge f) (by decide)
    _ ≤ 146153442 := by omega

/-- R122 in integers. -/
theorem ovfOf_eq (f : Flags) (p : Nat) : ovfOf rfb f p = decide (10000 * denominatorOf f ≤ p * 34029) := by
  show (!decide (p * 34029 < 10000 * denominatorOf f)) = _
  by_cases h : p * 34029 < 10000 * denominatorOf f
  · simp [h]
  · simp [h, Nat.le_of_not_lt h]

/-- The chain of R123 with R124, as a count of whole thousands strictly below the reading. -/
theorem ledNext_eq (led : LedWord) (f : Flags) (p : Nat) : ledNext rfb led f p = ledAfter led f p := by
  unfold ledNext ledAfter flagLe
  cases f.getLsbD 1
  · rfl
  have hD := denominatorOf_ge f
  unfold band readingAtMost readingBelow
  rw [readingNum_eq, readingDen_eq]
  generalize p * 34029 = n
  generalize denominatorOf f = D at *
  have lit : ∀ k, k ≤ 8 → (k = 0 ∨ k * 1000 * D < n) → n ≤ (k + 1) * 1000 * D →
      bandPattern rfb k = if 10000 * D ≤ n then led else if 9000 * D < n then 0x3FF#10
        else BitVec.ofNat 10 (2 ^ ((n - 1) / (1000 * D)) - 1) := by
    intro k hk low high
    have top : (k + 1) * 1000 * D ≤ 9 * 1000 * D := Nat.mul_le_mul_right _ (by omega)
    have quotient : (n - 1) / (1000 * D) = k := by
      apply Nat.div_eq_of_lt_le
      · rcases low with rfl | low
        · omega
        · have : k * (1000 * D) = k * 1000 * D := by ring
          omega
      · have : (k + 1) * (1000 * D) = (k + 1) * 1000 * D := by ring
        have : 0 < (k + 1) * 1000 * D := by positivity
        omega
    rw [if_neg (by omega), if_neg (by omega), quotient, bandPattern, if_neg (by omega)]
  simp only [if_true, decide_eq_true_eq, show rfb.bandUnit = 1000 from rfl]
  by_cases h0 : n ≤ 1 * 1000 * D
  · simp only [h0, if_true]
    exact lit 0 (by omega) (.inl rfl) h0
  by_cases h1 : n ≤ 2 * 1000 * D
  · simp only [h0, h1, if_true, if_false]
    exact lit 1 (by omega) (.inr (by omega)) h1
  by_cases h2 : n ≤ 3 * 1000 * D
  · simp only [h0, h1, h2, if_true, if_false]
    exact lit 2 (by omega) (.inr (by omega)) h2
  by_cases h3 : n ≤ 4 * 1000 * D
  · simp only [h0, h1, h2, h3, if_true, if_false]
    exact lit 3 (by omega) (.inr (by omega)) h3
  by_cases h4 : n ≤ 5 * 1000 * D
  · simp only [h0, h1, h2, h3, h4, if_true, if_false]
    exact lit 4 (by omega) (.inr (by omega)) h4
  by_cases h5 : n ≤ 6 * 1000 * D
  · simp only [h0, h1, h2, h3, h4, h5, if_true, if_false]
    exact lit 5 (by omega) (.inr (by omega)) h5
  by_cases h6 : n ≤ 7 * 1000 * D
  · simp only [h0, h1, h2, h3, h4, h5, h6, if_true, if_false]
    exact lit 6 (by omega) (.inr (by omega)) h6
  by_cases h7 : n ≤ 8 * 1000 * D
  · simp only [h0, h1, h2, h3, h4, h5, h6, h7, if_true, if_false]
    exact lit 7 (by omega) (.inr (by omega)) h7
  by_cases h8 : n ≤ 9 * 1000 * D
  · simp only [h0, h1, h2, h3, h4, h5, h6, h7, h8, if_true, if_false]
    exact lit 8 (by omega) (.inr (by omega)) h8
  by_cases h9 : n < 10 * 1000 * D
  · simp only [h0, h1, h2, h3, h4, h5, h6, h7, h8, h9, if_true, if_false, show ¬ 10000 * D ≤ n by omega,
      show 9000 * D < n by omega]
    rfl
  · simp only [h0, h1, h2, h3, h4, h5, h6, h7, h8, h9, if_false, show 10000 * D ≤ n by omega, if_true]

/-- Everything a finished reading does (R125, R132). -/
theorem finishReading_eq (s : State) (f : Flags) (p : Word) :
    s.finishReading f p = { s.answered (distanceOf f p.toNat) with
      pulse := p
      dist := BitVec.ofNat 32 (distanceOf f p.toNat)
      ovf := decide (10000 * denominatorOf f ≤ p.toNat * 34029)
      led := ledAfter s.led f p.toNat } := by
  have := distanceOf_le f p.isLt
  unfold State.finishReading
  rw [answered_eq, ovfOf_eq, ledNext_eq, distWord_eq, BitVec.toNat_ofNat, Nat.mod_eq_of_lt (by omega)]

end Sys2Proof.Machine
end

