-- ==== Sys2Proof/Laws/Decode.lean ====
section
/-!
SUPPORT. The one command format taken apart and put together: the fields of a packed word are what was packed, and a
word is the pack of its fields (R71).
-/
namespace Sys2Proof

theorem getLsbD_packCommand (o m : BitVec 4) (a : Word) (i : Nat) :
    (packCommand o m a).getLsbD i =
      if i < 32 then a.getLsbD i else if i < 36 then m.getLsbD (i - 32) else o.getLsbD (i - 36) := by
  have ho (h : 40 ≤ i) : o.getLsbD (i - 36) = false := BitVec.getLsbD_of_ge _ _ (by omega)
  have hm (h : 36 ≤ i) : m.getLsbD (i - 32) = false := BitVec.getLsbD_of_ge _ _ (by omega)
  have ha (h : 32 ≤ i) : a.getLsbD i = false := BitVec.getLsbD_of_ge _ _ h
  simp only [packCommand, BitVec.getLsbD_or, BitVec.getLsbD_shiftLeft, BitVec.getLsbD_setWidth]
  by_cases h1 : i < 32
  · simp [h1, show i < 36 by omega, show i < 40 by omega]
  by_cases h2 : i < 36
  · simp [h1, h2, ha (by omega), show i < 40 by omega, show i - 32 < 40 by omega]
  by_cases h3 : i < 40
  · simp [h1, h2, h3, ha (by omega), hm (by omega), show i - 36 < 40 by omega]
  · simp [h1, h2, h3, ho (by omega)]

theorem opcField_packCommand (o m : BitVec 4) (a : Word) : opcField (packCommand o m a) = o := by
  apply BitVec.eq_of_getLsbD_eq
  intro i hi
  simp [opcField, getLsbD_packCommand, hi, show ¬ 36 + i < 32 by omega]

theorem modField_packCommand (o m : BitVec 4) (a : Word) : modField (packCommand o m a) = m := by
  apply BitVec.eq_of_getLsbD_eq
  intro i hi
  simp [modField, getLsbD_packCommand, hi, show 32 + i < 36 by omega]

theorem argField_packCommand (o m : BitVec 4) (a : Word) : argField (packCommand o m a) = a := by
  apply BitVec.eq_of_getLsbD_eq
  intro i hi
  simp [argField, getLsbD_packCommand, hi]

/-- A word is the pack of its three fields. -/
theorem packCommand_fields (w : CmdWord) : packCommand (opcField w) (modField w) (argField w) = w := by
  apply BitVec.eq_of_getLsbD_eq
  intro i hi
  rw [getLsbD_packCommand]
  by_cases h1 : i < 32
  · simp [h1, argField]
  by_cases h2 : i < 36
  · simp [h1, h2, modField, show i - 32 < 4 by omega, show 32 + (i - 32) = i by omega]
  · simp [h1, h2, opcField, show i - 36 < 4 by omega, show 36 + (i - 36) = i by omega]

end Sys2Proof
end

