-- ==== Sys2Proof/Laws/PerInstr.lean ====
section
/-!
SUPPORT. The per-instruction family EncodesOnItsRow: the encoding of an operation, under its row's mask of
spec/opcode_table.json, is its row's match. The masks and matches are copied from the table, not from the encoder.
-/
namespace Sys2Proof.Laws

/-- The `mask` of an operation's row. -/
def tableMask : Instr → CmdWord
  | .enc _ => 0xFF00000000#40
  | .cmp _ _ => 0xF800000000#40
  | .lit _ => 0xFF00000000#40
  | .conv _ _ => 0xF800000000#40
  | .meas _ _ => 0xF800000000#40
  | .dly _ => 0xFF00000000#40
  | .inTick _ => 0xFF00000000#40
  | .inBtn _ => 0xFF00000000#40
  | .inSw _ => 0xFF00000000#40
  | .inEcho _ => 0xFF00000000#40
  | .inTrig _ => 0xFF00000000#40
  | .inLed _ => 0xFF00000000#40
  | .inHex _ => 0xFF00000000#40
  | .inPulse _ => 0xFF00000000#40
  | .inDist _ => 0xFF00000000#40
  | .inStatus _ => 0xFF00000000#40
  | .outTrig _ => 0xFF00000000#40
  | .outLed _ => 0xFF00000000#40
  | .outHex _ => 0xFF00000000#40

/-- The `match` of an operation's row. -/
def tableMatch : Instr → CmdWord
  | .enc _ => 0x1000000000#40
  | .cmp _ _ => 0x2000000000#40
  | .lit _ => 0x3000000000#40
  | .conv _ _ => 0x4000000000#40
  | .meas _ _ => 0x5000000000#40
  | .dly _ => 0x6000000000#40
  | .inTick _ => 0x7000000000#40
  | .inBtn _ => 0x7100000000#40
  | .inSw _ => 0x7200000000#40
  | .inEcho _ => 0x7300000000#40
  | .inTrig _ => 0x7400000000#40
  | .inLed _ => 0x7500000000#40
  | .inHex _ => 0x7600000000#40
  | .inPulse _ => 0x7700000000#40
  | .inDist _ => 0x7800000000#40
  | .inStatus _ => 0x7900000000#40
  | .outTrig _ => 0x8400000000#40
  | .outLed _ => 0x8500000000#40
  | .outHex _ => 0x8600000000#40

/-- A mask over the upper eight bits sees only the operation code and the modifier. -/
theorem packCommand_and_mask (o m h1 h0 : BitVec 4) (a : Word) :
    packCommand o m a &&& packCommand h1 h0 0#32 = packCommand (o &&& h1) (m &&& h0) 0#32 := by
  apply BitVec.eq_of_getLsbD_eq
  intro i _
  simp only [BitVec.getLsbD_and, getLsbD_packCommand]
  split
  · simp
  · split <;> rfl

/-- The encoding of `i` matches its row of the opcode table. -/
def EncodesOnItsRow.Statement (i : Instr) : Prop := encode i &&& tableMask i = tableMatch i

/-- A row with a fixed modifier. -/
theorem fixedRow (i : Instr) (h : tableMask i = packCommand 0xF#4 0xF#4 0#32)
    (hm : tableMatch i = packCommand (i.opc &&& 0xF#4) (i.modifier &&& 0xF#4) 0#32) :
    EncodesOnItsRow.Statement i := by
  show packCommand _ _ _ &&& tableMask i = _
  rw [h, hm, packCommand_and_mask]

/-- A row whose modifier is a flags nibble: only its reserved bit is fixed. -/
theorem flagsRow (i : Instr) (f : Flags) (hf : i.modifier = f.setWidth 4)
    (h : tableMask i = packCommand 0xF#4 0x8#4 0#32)
    (hm : tableMatch i = packCommand (i.opc &&& 0xF#4) 0#4 0#32) : EncodesOnItsRow.Statement i := by
  have h0 : ∀ g : Flags, g.setWidth 4 &&& 0x8#4 = 0#4 := by decide
  show packCommand _ _ _ &&& tableMask i = _
  rw [h, hm, packCommand_and_mask, hf, h0]

theorem EncodesOnItsRow.enc (a : Word) : EncodesOnItsRow.Statement (.enc a) :=
  fixedRow _ rfl (by simp [tableMatch, Instr.opc, Instr.modifier, packCommand])

theorem EncodesOnItsRow.cmp (f : Flags) (a : Word) : EncodesOnItsRow.Statement (.cmp f a) :=
  flagsRow _ f rfl rfl (by simp [tableMatch, Instr.opc, packCommand])

theorem EncodesOnItsRow.lit (a : Word) : EncodesOnItsRow.Statement (.lit a) :=
  fixedRow _ rfl (by simp [tableMatch, Instr.opc, Instr.modifier, packCommand])

theorem EncodesOnItsRow.conv (f : Flags) (a : Word) : EncodesOnItsRow.Statement (.conv f a) :=
  flagsRow _ f rfl rfl (by simp [tableMatch, Instr.opc, packCommand])

theorem EncodesOnItsRow.meas (f : Flags) (a : Word) : EncodesOnItsRow.Statement (.meas f a) :=
  flagsRow _ f rfl rfl (by simp [tableMatch, Instr.opc, packCommand])

theorem EncodesOnItsRow.dly (a : Word) : EncodesOnItsRow.Statement (.dly a) :=
  fixedRow _ rfl (by simp [tableMatch, Instr.opc, Instr.modifier, packCommand])

theorem EncodesOnItsRow.inTick (a : Word) : EncodesOnItsRow.Statement (.inTick a) :=
  fixedRow _ rfl (by simp [tableMatch, Instr.opc, Instr.modifier, packCommand])

theorem EncodesOnItsRow.inBtn (a : Word) : EncodesOnItsRow.Statement (.inBtn a) :=
  fixedRow _ rfl (by simp [tableMatch, Instr.opc, Instr.modifier, packCommand])

theorem EncodesOnItsRow.inSw (a : Word) : EncodesOnItsRow.Statement (.inSw a) :=
  fixedRow _ rfl (by simp [tableMatch, Instr.opc, Instr.modifier, packCommand])

theorem EncodesOnItsRow.inEcho (a : Word) : EncodesOnItsRow.Statement (.inEcho a) :=
  fixedRow _ rfl (by simp [tableMatch, Instr.opc, Instr.modifier, packCommand])

theorem EncodesOnItsRow.inTrig (a : Word) : EncodesOnItsRow.Statement (.inTrig a) :=
  fixedRow _ rfl (by simp [tableMatch, Instr.opc, Instr.modifier, packCommand])

theorem EncodesOnItsRow.inLed (a : Word) : EncodesOnItsRow.Statement (.inLed a) :=
  fixedRow _ rfl (by simp [tableMatch, Instr.opc, Instr.modifier, packCommand])

theorem EncodesOnItsRow.inHex (a : Word) : EncodesOnItsRow.Statement (.inHex a) :=
  fixedRow _ rfl (by simp [tableMatch, Instr.opc, Instr.modifier, packCommand])

theorem EncodesOnItsRow.inPulse (a : Word) : EncodesOnItsRow.Statement (.inPulse a) :=
  fixedRow _ rfl (by simp [tableMatch, Instr.opc, Instr.modifier, packCommand])

theorem EncodesOnItsRow.inDist (a : Word) : EncodesOnItsRow.Statement (.inDist a) :=
  fixedRow _ rfl (by simp [tableMatch, Instr.opc, Instr.modifier, packCommand])

theorem EncodesOnItsRow.inStatus (a : Word) : EncodesOnItsRow.Statement (.inStatus a) :=
  fixedRow _ rfl (by simp [tableMatch, Instr.opc, Instr.modifier, packCommand])

theorem EncodesOnItsRow.outTrig (a : Word) : EncodesOnItsRow.Statement (.outTrig a) :=
  fixedRow _ rfl (by simp [tableMatch, Instr.opc, Instr.modifier, packCommand])

theorem EncodesOnItsRow.outLed (a : Word) : EncodesOnItsRow.Statement (.outLed a) :=
  fixedRow _ rfl (by simp [tableMatch, Instr.opc, Instr.modifier, packCommand])

theorem EncodesOnItsRow.outHex (a : Word) : EncodesOnItsRow.Statement (.outHex a) :=
  fixedRow _ rfl (by simp [tableMatch, Instr.opc, Instr.modifier, packCommand])

end Sys2Proof.Laws
end

