-- ==== Sys2Proof/Laws/Step.lean ====
section
/-!
SUPPORT. What one tick is, by its four cases (reset, an accepted operation, an accepted word that is none, a tick of
the present phase), and how runs of ticks are put together.
-/
namespace Sys2Proof.Machine

/-- A tick with RST high (R220). -/
theorem step_reset {s : State} (h : s.lines.rst = true) : step s = .next s.resetTick := by
  have ha : s.accepts = false := by simp [State.accepts, State.cmdReady, h]
  simp [step, State.acceptedInstr, State.otherTick, ha, h]

/-- A tick that accepts the word of an operation (R35). -/
theorem step_of_decode {s : State} {i : Instr} (ha : s.accepts = true) (hd : decode s.lines.cmd = .ok i) :
    step s = closeTick (exec i s) := by
  simp [step, State.acceptedInstr_eq_some.mpr ⟨ha, hd⟩]

/-- A tick that accepts a word the decoder rejects (R206). -/
theorem step_of_reject {s : State} {e : CommandError} (ha : s.accepts = true)
    (hd : decode s.lines.cmd = .error e) :
    step s = .next ({ s with cerr := true, rspv := true, rspd := 0x100000000#33 } : State).advance := by
  have hr : s.lines.rst = false := (s.accepts_iff.mp ha).2.1
  simp [step, State.acceptedInstr, State.otherTick, ha, hd, hr, Except.toOption, State.rejectWord_of_error hd]

/-- A tick in which nothing is accepted (R28, R35). -/
theorem step_of_phase {s : State} (hr : s.lines.rst = false) (ha : s.accepts = false) :
    step s = .next s.phaseTick.advance := by
  simp [step, State.acceptedInstr, State.otherTick, ha, hr]

/-- A block that is not READY accepts nothing (R35). -/
theorem State.accepts_of_busy {s : State} (h : s.phase ≠ .ready) : s.accepts = false := by
  simp [State.accepts, State.cmdReady, h]

/-- The cases of a tick, all of them. -/
theorem step_cases (s : State) :
    (s.lines.rst = true ∧ step s = .next s.resetTick) ∨
    (s.accepts = true ∧ ∃ i, decode s.lines.cmd = .ok i ∧ step s = closeTick (exec i s)) ∨
    (s.accepts = true ∧ ∃ e, decode s.lines.cmd = .error e ∧
      step s = .next ({ s with cerr := true, rspv := true, rspd := 0x100000000#33 } : State).advance) ∨
    (s.lines.rst = false ∧ s.accepts = false ∧ step s = .next s.phaseTick.advance) := by
  cases hr : s.lines.rst with
  | true => exact .inl ⟨rfl, step_reset hr⟩
  | false =>
    cases ha : s.accepts with
    | false => exact .inr (.inr (.inr ⟨rfl, rfl, step_of_phase hr ha⟩))
    | true =>
      cases hd : decode s.lines.cmd with
      | ok i => exact .inr (.inl ⟨rfl, i, rfl, step_of_decode ha hd⟩)
      | error e => exact .inr (.inr (.inl ⟨rfl, e, rfl, step_of_reject ha hd⟩))

/-- An operation always answers a next state, and leaves the tick counter and the lines to the tick's end (R8). -/
theorem exec_next (i : Instr) (s : State) : ∃ t, exec i s = .next t ∧ t.tick = s.tick ∧ t.lines = s.lines ∧
    t.coming = s.coming ∧ t.draws = s.draws := by
  cases i <;> simp only [exec, execEnc, execCmp, execLit, execConv, execMeas, execDly, execInTick, execInBtn, execInSw,
    execInEcho, execInTrig, execInLed, execInHex, execInPulse, execInDist, execInStatus, execOutTrig, execOutLed,
    execOutHex] <;>
    first
      | exact ⟨_, rfl, rfl, rfl, rfl, rfl⟩
      | (split <;> exact ⟨_, rfl, rfl, rfl, rfl, rfl⟩)

/-- So does a tick of any phase. -/
theorem phaseTick_keeps (s : State) : s.phaseTick.tick = s.tick ∧ s.phaseTick.lines = s.lines ∧
    s.phaseTick.coming = s.coming ∧ s.phaseTick.draws = s.draws := by
  unfold State.phaseTick State.quietTick State.triggerTick State.waitRiseTick State.measureTick State.delayTick
  split <;> first | exact ⟨rfl, rfl, rfl, rfl⟩ | (split <;> exact ⟨rfl, rfl, rfl, rfl⟩)

/-- The levels move on by one tick at its end. -/
theorem State.linesAt_advance (s : State) (k : Nat) : s.advance.linesAt k = s.linesAt (k + 1) := by
  show s.countTick.drawLines.linesAt k = _
  rw [State.linesAt_drawLines]
  exact State.linesAt_congr rfl rfl rfl _

/-- A run starts with its first tick. -/
theorem runTicks_of_step {s t : State} (h : step s = .next t) (n : Nat) :
    runTicks (n + 1) s = runTicks n t := by
  simp [runTicks, h]

/-- A run goes on where a shorter one ended. -/
theorem runTicks_add {m : Nat} {s t : State} (h : runTicks m s = .next t) (n : Nat) :
    runTicks (m + n) s = runTicks n t := by
  induction m generalizing s with
  | zero =>
    simp only [runTicks, Host.Outcome.next.injEq] at h
    rw [h, Nat.zero_add]
  | succ m ih =>
    rw [Nat.add_right_comm]
    simp only [runTicks] at h ⊢
    cases hs : step s with
    | next u => rw [hs] at h; exact ih h
    | fault r => rw [hs] at h; exact absurd h (by simp)
    | refused r => rw [hs] at h; exact absurd h (by simp)

/-- A run goes on by one tick. -/
theorem runTicks_snoc {k : Nat} {s u v : State} (h : runTicks k s = .next u) (hv : step u = .next v) :
    runTicks (k + 1) s = .next v := by
  rw [runTicks_add h 1, runTicks_of_step hv 0]
  rfl

/-- The run of the host's interface is the same run. -/
theorem core_run_eq_runTicks (n : Nat) (s : State) : Host.Core.run Sys2Proof.core n s = runTicks n s := by
  induction n generalizing s with
  | zero => rfl
  | succ n ih =>
    have hc : Sys2Proof.core.step s = step s := rfl
    simp only [Host.Core.run, runTicks, hc]
    cases step s with
    | next t => exact ih t
    | fault r => rfl
    | refused r => rfl

end Sys2Proof.Machine
end

