-- ==== Sys2Proof/Machine/Assembler.lean ====
section
/-!
DEFINITION. The assembler syntax of R82: how a command and its word are written. Nothing in the machine reads it.
-/
namespace Sys2Proof.Machine

/-- The names of a flags nibble, joined by a bar; 0 is written CM (R82). -/
def flagsText (f : Flags) : String :=
  let names := (if f.getLsbD 0 then ["M"] else []) ++ (if f.getLsbD 1 then ["LE"] else []) ++
    (if f.getLsbD 2 then ["DP"] else [])
  if names.isEmpty then "CM" else String.intercalate "|" names

/-- A command in assembler syntax (R82), arguments in decimal, ignored arguments not written. -/
def asmText : Instr → String
  | .enc a => "ENC " ++ toString a.toNat
  | .cmp f a => "CMP " ++ flagsText f ++ ", " ++ toString a.toNat
  | .lit a => "LIT " ++ toString a.toNat
  | .conv f a => "CONV " ++ flagsText f ++ ", " ++ toString a.toNat
  | .meas f _ => "MEAS " ++ flagsText f
  | .dly a => "DLY " ++ toString a.toNat
  | .inTick _ => "IN TICK"
  | .inBtn _ => "IN BTN"
  | .inSw _ => "IN SW"
  | .inEcho _ => "IN ECHO"
  | .inTrig _ => "IN TRIG"
  | .inLed _ => "IN LED"
  | .inHex _ => "IN HEX"
  | .inPulse _ => "IN PULSE"
  | .inDist _ => "IN DIST"
  | .inStatus _ => "IN STATUS"
  | .outTrig a => "OUT TRIG, " ++ toString a.toNat
  | .outLed a => "OUT LED, " ++ toString a.toNat
  | .outHex a => "OUT HEX, " ++ toString a.toNat

/-- The hexadecimal digits. -/
def hexDigits : List Char := ['0', '1', '2', '3', '4', '5', '6', '7', '8', '9', 'A', 'B', 'C', 'D', 'E', 'F']

/-- A command word as ten hexadecimal digits, `opc` first (R82). -/
def wordText (w : CmdWord) : String :=
  "0x" ++ String.ofList ((List.range 10).map fun i => hexDigits.getD (w.extractLsb' (36 - 4 * i) 4).toNat '0')

end Sys2Proof.Machine
end

