-- ==== Sys2Proof/Tests/Slice0.lean ====
section
/-!
SUPPORT. The model's own tests and the witnesses of its statements. Every expected value is one that
spec/95_test_vectors.md or the cited rule gives.
-/
namespace Sys2Proof.Tests
open Sys2Proof Sys2Proof.Machine

/-! ### Helpers -/

/-- Lines on which no command stands and reset is low. -/
def line (echo : Bool) : Lines :=
  { rst := false, cmdValid := false, cmd := 0#40, btn := 2#2, sw := 0x2A5#10, echo := echo }

/-- The reset state on such lines, with LED = 0x155 as the tables of section 2 have it. -/
def base : State := { State.reset with lines := line true, led := 0x155#10 }

/-- The base state with a command word presented. -/
def taking (w : CmdWord) : State := base.present w

/-- One field of the state after one tick. -/
def after {α : Type} (g : State → α) (s : State) : Option α :=
  match step s with
  | .next t => some (g t)
  | .fault _ => none
  | .refused _ => none

/-- The response after one tick: none, or err and data. -/
def response (t : State) : Option (Bool × Word) := if t.rspValid then some (t.rspErr, t.rspData) else none

/-- A base state in a phase, `n` ticks after the sample in T0. -/
def inPhase (p : Phase) (n : Word) (echo : Bool) : State :=
  { base with phase := p, tick := 7#32 + n, t0 := 7#32, f := 2#3, nt := 100000000#32, lines := line echo }

/-! ### WellFormed: each check refuses an ill-formed term -/

theorem test_wf_refuses_literal_index : (Instr.lit 11#32).wf = false ∧ (Instr.lit 10#32).wf = true := by decide
theorem test_wf_refuses_long_delay : (Instr.dly 86#32).wf = false ∧ (Instr.dly 85#32).wf = true := by decide
theorem test_wf_params : rfb.wf = true := by decide
theorem test_wf_params_refused :
    ({ rfb with ticksPerSecond := 0 } : Params).wf = false ∧ ({ rfb with kNum := 0 } : Params).wf = false ∧
    ({ rfb with kDen := 0 } : Params).wf = false ∧ ({ rfb with dpDiv := 0 } : Params).wf = false ∧
    ({ rfb with mDiv := 0 } : Params).wf = false ∧ ({ rfb with bandUnit := 0 } : Params).wf = false ∧
    ({ rfb with ovfThreshold := 0 } : Params).wf = false ∧ ({ rfb with ovfThreshold := 9999 } : Params).wf = false ∧
    ({ rfb with labelSeconds := 86 } : Params).wf = false ∧ ({ rfb with valueSeconds := 86 } : Params).wf = false ∧
    ({ rfb with wLed := 8 } : Params).wf = false ∧ ({ rfb with ledBand9 := 0x400 } : Params).wf = false ∧
    ({ rfb with digits := [] } : Params).wf = false ∧ ({ rfb with wTick := 31 } : Params).wf = false ∧
    ({ rfb with wLed := 11 } : Params).wf = false ∧ ({ rfb with wCmd := 32 } : Params).wf = false := by decide
theorem test_wf_host_params :
    ({ pressedLevel := false, policy := .twoIfs, lowInit := 9999#32 } : HostParams).wf rfb = false ∧
    ({ pressedLevel := false, policy := .twoIfs, lowInit := 10000#32 } : HostParams).wf rfb = true := by decide

/-! ### Decoding: words from the encodings of R71 to R74, and from 95_test_vectors.md -/

theorem test_decode_enc : decode 0x1000000009#40 = .ok (.enc 9#32) := by decide
theorem test_decode_cmp : decode 0x24000004D2#40 = .ok (.cmp 4#3 1234#32) := by decide
theorem test_decode_lit : decode 0x300000000A#40 = .ok (.lit 10#32) := by decide
theorem test_decode_conv : decode 0x4711840DF4#40 = .ok (.conv 7#3 293866996#32) := by decide
theorem test_decode_meas : decode 0x5600000000#40 = .ok (.meas 6#3 0#32) := by decide
theorem test_decode_dly : decode 0x6000000055#40 = .ok (.dly 85#32) := by decide
theorem test_decode_in_tick : decode 0x7000000000#40 = .ok (.inTick 0#32) := by decide
theorem test_decode_in_btn : decode 0x7100000000#40 = .ok (.inBtn 0#32) := by decide
theorem test_decode_in_sw : decode 0x7200000000#40 = .ok (.inSw 0#32) := by decide
theorem test_decode_in_echo : decode 0x7300000000#40 = .ok (.inEcho 0#32) := by decide
theorem test_decode_in_trig : decode 0x7400000000#40 = .ok (.inTrig 0#32) := by decide
theorem test_decode_in_led : decode 0x7500000000#40 = .ok (.inLed 0#32) := by decide
theorem test_decode_in_hex : decode 0x7600000000#40 = .ok (.inHex 0#32) := by decide
theorem test_decode_in_pulse : decode 0x7700000000#40 = .ok (.inPulse 0#32) := by decide
theorem test_decode_in_dist : decode 0x7800000000#40 = .ok (.inDist 0#32) := by decide
theorem test_decode_in_status : decode 0x7900000000#40 = .ok (.inStatus 0#32) := by decide
theorem test_decode_out_trig : decode 0x84FFFFFFFE#40 = .ok (.outTrig 0xFFFFFFFE#32) := by decide
theorem test_decode_out_led : decode 0x8500000155#40 = .ok (.outLed 0x155#32) := by decide
theorem test_decode_out_hex : decode 0x8679A4B099#40 = .ok (.outHex 0x79A4B099#32) := by decide

/-- The words of section 2.8 that the decoder rejects, with the cause named there. -/
theorem test_decode_rejects :
    decode 0x0000000000#40 = .error .reservedOpcode ∧ decode 0xFFFFFFFFFF#40 = .error .reservedOpcode ∧
    decode 0x9000000000#40 = .error .reservedOpcode ∧ decode 0x1100000003#40 = .error .reservedModifier ∧
    decode 0x2800000001#40 = .error .reservedModifier ∧ decode 0x310000000B#40 = .error .reservedModifier ∧
    decode 0x4C00000005#40 = .error .reservedModifier ∧ decode 0x5800000000#40 = .error .reservedModifier ∧
    decode 0x6100000002#40 = .error .reservedModifier ∧ decode 0x7A00000000#40 = .error .reservedPort ∧
    decode 0x8000000005#40 = .error .badOutPort ∧ decode 0x8F00000000#40 = .error .badOutPort := by decide

/-- Which port numbers OUT takes and IN takes, against the port map (R51). -/
theorem test_port_map :
    ([Port.tick, .btn, .sw, .echo, .trig, .led, .hex, .pulse, .dist, .status].all fun q =>
      (decode (packCommand 7#4 (portNumber q) 0#32)).toOption.isSome &&
      ((decode (packCommand 8#4 (portNumber q) 0#32)).toOption.isSome == portWritable q)) = true := by decide

/-- The pseudo-instructions' words (R83). -/
theorem test_encode_pseudo :
    encode pseudoBlank = 0x86FFFFFFFF#40 ∧ encode pseudoLedOff = 0x8500000000#40 ∧
    encode pseudoTrigLo = 0x8400000000#40 ∧ encode pseudoRdTick = 0x7000000000#40 ∧
    encode pseudoRdBtn = 0x7100000000#40 ∧ encode pseudoRdSw = 0x7200000000#40 ∧
    encode pseudoRdSt = 0x7900000000#40 := by decide

/-- A word as R82 prints it. -/
theorem test_word_text : wordText (encode (.meas 6#3 0#32)) = "0x5600000000" := by decide
theorem test_asm_text : asmText (.meas 6#3 0#32) = "MEAS LE|DP" ∧ asmText (.cmp 0#3 1234#32) = "CMP CM, 1234" := by
  decide

/-! ### One step of each operation -/

theorem test_enc_digits :
    after response (taking 0x1000000009#40) = some (some (false, 0x98#32)) ∧
    after response (taking 0x1000000006#40) = some (some (false, 0x82#32)) := by decide
theorem test_enc_out_of_range :
    after response (taking 0x10FFFFFFFF#40) = some (some (false, 0xC0#32)) ∧
    after response (taking 0x1100000003#40) = some (some (true, 0#32)) := by decide
theorem test_cmp_point_off :
    after response (taking 0x20000004D2#40) = some (some (false, 0x79A4B099#32)) ∧
    after response (taking 0x20FFFFFFFF#40) = some (some (false, 0x78A49892#32)) := by decide
theorem test_cmp_point_on :
    after response (taking 0x2400000325#40) = some (some (false, 0xC000C092#32)) ∧
    after response (taking 0x28000004D2#40) = some (some (true, 0#32)) := by decide
theorem test_lit_words :
    after response (taking 0x3000000008#40) = some (some (false, 0x8B6FFFFF#32)) ∧
    after response (taking 0x300000000A#40) = some (some (false, 0xFFFFFFFF#32)) := by decide
theorem test_lit_eleven : after response (taking 0x300000000B#40) = some (some (true, 0#32)) := by decide
theorem test_conv_band :
    after (fun t => (response t, t.pulse, t.dist, t.ovf, t.led)) (taking 0x4200008DA8#40) =
      some (some (false, 1234#32), 36264#32, 1234#32, false, 1#10) ∧
    after (fun t => (response t, t.ovf, t.led)) (taking 0x4301C067CB#40) =
      some (some (false, 9999#32), false, 0x3FF#10) := by decide
theorem test_conv_overflow :
    after (fun t => (response t, t.ovf, t.led)) (taking 0x4000047BEB#40) =
      some (some (false, 10000#32), true, 0#10) ∧
    after (fun t => (response t, t.ovf, t.led)) (taking 0x42FFFFFFFF#40) =
      some (some (false, 146153442#32), true, 0x155#10) := by decide
theorem test_meas_accept :
    after (fun t => (response t, t.phase, t.trig, t.f, t.tick)) (taking 0x5200000000#40) =
      some (none, .quiet, false, 2#3, 1#32) := by decide
theorem test_meas_rejected :
    after (fun t => (response t, t.phase, t.cerr)) (taking 0x5800000000#40) =
      some (some (true, 0#32), .ready, true) := by decide
theorem test_dly_accept :
    after (fun t => (response t, t.phase, t.nt)) (taking 0x6000000055#40) =
      some (none, .delay, 0xFD51DA80#32) := by decide
theorem test_dly_too_long :
    after (fun t => (response t, t.phase, t.nt, t.cerr)) (taking 0x6000000056#40) =
      some (some (true, 0#32), .ready, 0#32, true) := by decide
theorem test_in_lines :
    after response (taking 0x7100000000#40) = some (some (false, 2#32)) ∧
    after response (taking 0x7200000000#40) = some (some (false, 0x2A5#32)) ∧
    after response (taking 0x7300000000#40) = some (some (false, 1#32)) := by decide
theorem test_in_registers :
    after response { taking 0x7000000000#40 with tick := 12#32 } = some (some (false, 12#32)) ∧
    after response (taking 0x7400000000#40) = some (some (false, 0#32)) ∧
    after response (taking 0x7500000000#40) = some (some (false, 0x155#32)) ∧
    after response (taking 0x7600000000#40) = some (some (false, 0xFFFFFFFF#32)) ∧
    after response (taking 0x7700000000#40) = some (some (false, 0#32)) ∧
    after response (taking 0x7800000000#40) = some (some (false, 0#32)) ∧
    after response { taking 0x7900000000#40 with cerr := true } = some (some (false, 2#32)) := by decide
theorem test_in_reserved :
    after (fun t => (response t, t.cerr)) (taking 0x7A00000000#40) = some (some (true, 0#32), true) := by decide
theorem test_out_trig :
    after (fun t => (response t, t.trig)) (taking 0x8400000001#40) = some (some (false, 0#32), true) ∧
    after (fun t => t.trig) { taking 0x84FFFFFFFE#40 with trig := true } = some false := by decide
theorem test_out_led : after (fun t => (response t, t.led)) (taking 0x85FFFFFFFF#40) =
    some (some (false, 0#32), 0x3FF#10) := by decide
theorem test_out_hex : after (fun t => (response t, t.hex)) (taking 0x8679A4B099#40) =
    some (some (false, 0#32), 0x79A4B099#32) := by decide
theorem test_out_rejected :
    after (fun t => (response t, t.tick, t.cerr)) (taking 0x8000000005#40) =
      some (some (true, 0#32), 1#32, true) := by decide

/-! ### Phases, reset, the interface's two helpers -/

theorem test_quiet_ends_at_its_count :
    after (fun t => (t.phase, t.trig)) (inPhase .quiet 49999#32 true) = some (.quiet, false) ∧
    after (fun t => (t.phase, t.trig)) (inPhase .quiet 50000#32 true) = some (.trigger, true) := by decide
theorem test_trigger_ends_at_its_count :
    after (fun t => (t.phase, t.trig)) { inPhase .trigger 500#32 true with trig := true } = some (.trigger, true) ∧
    after (fun t => (t.phase, t.trig)) { inPhase .trigger 501#32 true with trig := true } =
      some (.waitRise, false) := by decide
theorem test_wait_rise_waits_for_the_level :
    after (fun t => t.phase) (inPhase .waitRise 9#32 false) = some .waitRise ∧
    after (fun t => (t.phase, t.t0)) (inPhase .waitRise 9#32 true) = some (.measure, 16#32) := by decide
theorem test_measure_ends_with_the_fall :
    after (fun t => (t.phase, response t)) (inPhase .measure 36264#32 true) = some (.measure, none) ∧
    after (fun t => (t.phase, response t, t.pulse, t.led)) (inPhase .measure 36264#32 false) =
      some (.ready, some (false, 1234#32), 36264#32, 1#10) := by decide
theorem test_delay_ends_at_its_length :
    after (fun t => (t.phase, response t)) (inPhase .delay 99999999#32 true) = some (.delay, none) ∧
    after (fun t => (t.phase, response t)) (inPhase .delay 100000000#32 true) =
      some (.ready, some (false, 0#32)) := by decide
theorem test_reset_tick :
    after (fun t => (t.tick, t.trig, t.led, t.hex, t.phase)) { inPhase .trigger 200#32 true with
      trig := true, hex := 0#32, lines := { line true with rst := true } } =
      some (0#32, false, 0#10, 0xFFFFFFFF#32, .ready) := by decide
theorem test_ready_only_without_reset :
    base.cmdReady = true ∧ ({ base with lines := { line true with rst := true } } : State).cmdReady = false ∧
    (inPhase .delay 0#32 true).cmdReady = false := by decide
theorem test_table_word :
    decodeTableWord 40 0x7900000000 = some (.inStatus 0#32) ∧ decodeTableWord 40 0x8679A4B099 =
      some (.outHex 0x79A4B099#32) ∧ decodeTableWord 40 0x9000000000 = none := by decide
theorem test_fetch_word :
    after response (State.reset.withFetchWord 40 0x79A4B099) = some (some (true, 0#32)) ∧
    after (fun t => t.hex) (State.reset.withFetchWord 40 0x8679A4B099) = some 0x79A4B099#32 := by decide
/-- The glyph of "0": six segments lit, the middle and the point dark (R84, R85). -/
theorem test_segments : ([Segment.a, .b, .c, .d, .e, .f, .g, .point].map (segmentLit 0xC0#8)) =
    [true, true, true, true, true, true, false, false] := by decide

/-! ### Witnesses: states and operands that meet the hypotheses of the statements -/

/-- A field's value after a tick names the next state. -/
theorem next_of_after {α : Type} {g : State → α} {s : State} {v : α} (h : after g s = some v) :
    ∃ t, step s = .next t ∧ g t = v := by
  unfold after at h
  split at h
  · exact ⟨_, ‹_›, Option.some.inj h⟩
  · cases h
  · cases h

/-- A schedule of `n` equal lines with reset low holds off reset for `n + 1` ticks. -/
theorem noResetFor_of_replicate {s : State} {l : Lines} {n : Nat} (h0 : s.lines.rst = false)
    (hc : s.coming = List.replicate n l) (hl : l.rst = false) : s.noResetFor (n + 1) := by
  intro k hk
  cases k with
  | zero => exact h0
  | succ k => simp [State.linesAt, hc, hl, List.getD, show k < n by omega]

/-- What a schedule of `n` equal lines and then some others puts on the lines. -/
theorem linesAt_replicate_append {s : State} {l last : Lines} {n : Nat} {rest : List Lines}
    (hc : s.coming = List.replicate n l ++ last :: rest) :
    (∀ k, k < n → s.linesAt (k + 1) = l) ∧ s.linesAt (n + 1) = last := by
  constructor
  · intro k hk
    simp [State.linesAt, hc, List.getD, List.getElem?_append, hk]
  · simp [State.linesAt, hc, List.getD]

/-- A schedule of `n` equal lines puts them on the lines. -/
theorem linesAt_replicate {s : State} {l : Lines} {n k : Nat} (hc : s.coming = List.replicate n l) (hk : k < n) :
    s.linesAt (k + 1) = l := by
  simp [State.linesAt, hc, List.getD, hk]

/-- A decidable property of each entry of a list, by one evaluation of the list. -/
theorem forall_of_all {α : Type} {p : α → Prop} [DecidablePred p] {l : List α}
    (h : l.all (fun x => decide (p x)) = true) : ∀ x ∈ l, p x :=
  fun x hx => of_decide_eq_true (List.all_eq_true.mp h x hx)

/-- A presented word is taken. -/
theorem taking_takesWord (w : CmdWord) : (taking w).takesWord w := ⟨rfl, rfl, rfl, rfl⟩

/-- A command taken, with reset low and ECHO at one level for `n` ticks more. -/
def takingFor (w : CmdWord) (n : Nat) (echo : Bool) : State :=
  { taking w with coming := List.replicate n (line echo) }

theorem witness_EncodeOfDecodeIsTheWord : decode 0x10FFFFFFFF#40 = .ok (.enc 0xFFFFFFFF#32) := by decide
theorem witness_StepRunsTheAcceptedOperation :
    (taking 0x7900000000#40).takesWord 0x7900000000#40 ∧ decode 0x7900000000#40 = .ok (.inStatus 0#32) := by decide
/-- The counter wraps (R21). -/
theorem test_tick_wraps : after (fun t => t.tick) { base with tick := 0xFFFFFFFF#32 } = some 0#32 := by decide
theorem witness_TickDifferenceIsElapsedTicks :
    (takingFor 0x6000000002#40 (2 ^ 33) true).noResetFor (2 ^ 33 + 1) :=
  noResetFor_of_replicate rfl rfl rfl

/-- An illegal word for each cause of R205, at the boundary of its range, and the legal word next to it. -/
theorem witness_IllegalCommandsSetOnlyCerr :
    (∀ w ∈ [0x0000000000#40, 0x9000000000#40, 0x1100000003#40, 0x2800000001#40, 0x7A00000000#40, 0x8300000000#40,
      0x8700000000#40, 0x300000000B#40, 0x6000000056#40], (taking w).takesWord w ∧ IllegalCommand w) ∧
    (∀ w ∈ [0x1000000003#40, 0x2700000001#40, 0x7900000000#40, 0x8400000000#40, 0x8600000000#40, 0x300000000A#40,
      0x6000000055#40], (taking w).takesWord w ∧ ¬ IllegalCommand w) ∧
    ({ base with cerr := true } : State).lines.rst = false :=
  ⟨forall_of_all (by decide), forall_of_all (by decide), rfl⟩
theorem witness_ResponseIsWithdrawnAfterOneTick :
    ({ base with rspv := true } : State).lines.rst = false ∧
    ({ base with rspv := true } : State).lines.cmdValid = false ∧
    ({ base with rspv := true } : State).phase = .ready := by decide

/-- For each operation code a word whose modifier is legal and one whose modifier is not, each taken. -/
theorem witness_command_words :
    ∀ x ∈ [(0x1000000009#40, 1#4), (0x1F00000009#40, 1#4), (0x27000004D2#40, 2#4), (0x28000004D2#40, 2#4),
      (0x300000000A#40, 3#4), (0x300000000B#40, 3#4), (0x3100000000#40, 3#4), (0x4700008DA8#40, 4#4),
      (0x4800008DA8#40, 4#4), (0x5700000000#40, 5#4), (0x5800000000#40, 5#4), (0x6000000055#40, 6#4),
      (0x6000000056#40, 6#4), (0x6100000002#40, 6#4), (0x7000000000#40, 7#4), (0x7900000000#40, 7#4),
      (0x7A00000000#40, 7#4), (0x8400000001#40, 8#4), (0x8600000001#40, 8#4), (0x8300000001#40, 8#4),
      (0x8700000001#40, 8#4)], (taking x.1).takesWord x.1 ∧ x.1.extractLsb' 36 4 = x.2 :=
  forall_of_all (by decide)
theorem witness_LitRespondsWithTheLiteralWord : (10#32).toNat ≤ 10 ∧ 10 < (11#32).toNat := by decide
theorem witness_DlyStartsTheDelay : (85#32).toNat ≤ 85 ∧ 86 ≤ (86#32).toNat := by decide
theorem witness_PortReadsBackWhatOutWrote : Port.tick ≠ .trig ∧ Port.status ≠ .led ∧ Port.led ≠ .hex := by decide
theorem witness_ResetTickSetsEveryRegister :
    ({ inPhase .trigger 200#32 true with lines := { line true with rst := true } } : State).lines.rst = true := by
  decide
theorem witness_ResetAbandonsTheCommand :
    let s : State := { inPhase .trigger 200#32 true with
      lines := { line true with rst := true }, coming := List.replicate 9 (line true) }
    s.lines.rst = true ∧ (∀ k, 0 < k → k < 10 → (s.linesAt k).cmdValid = false) ∧ 0 < 10 := by
  refine ⟨rfl, ?_, by decide⟩
  intro k h0 h
  interval_cases k <;> rfl
theorem witness_PhaseTicksFollowTheirRules :
    (∀ p ∈ [Phase.quiet, .trigger, .waitRise, .measure, .delay], (inPhase p 9#32 true).phase = p ∧
      (inPhase p 9#32 true).lines.rst = false) ∧
    50000 ≤ ((inPhase .quiet 50000#32 true).tick - (inPhase .quiet 50000#32 true).t0).toNat ∧
    501 ≤ ((inPhase .trigger 501#32 true).tick - (inPhase .trigger 501#32 true).t0).toNat := by decide

/-- One tick over each arrow of R172. -/
theorem witness_SequencerTakesOnlyItsArrows :
    ∀ x ∈ [(taking 0x5200000000#40, Phase.quiet), (inPhase .quiet 50000#32 true, .trigger),
      (inPhase .trigger 501#32 true, .waitRise), (inPhase .waitRise 0#32 true, .measure),
      (inPhase .measure 1#32 false, .ready), (taking 0x6000000000#40, .delay),
      (inPhase .delay 100000000#32 true, .ready)],
      x.1.lines.rst = false ∧ after (fun t => t.phase) x.1 = some x.2 ∧ x.2 ≠ x.1.phase := by decide

/-- The shortest measurement: ECHO low at tick 50,503, and high in every tick before it. -/
theorem witness_MeasMeasuresTheEcho :
    let s : State := { taking (encode (.meas 2#3 0#32)) with
      coming := List.replicate 50502 (line true) ++ [line false] }
    s.takesWord (encode (.meas 2#3 0#32)) ∧ s.noResetFor (50503 + 1) ∧ 50502 ≤ 50502 ∧ 50502 < 50503 ∧
    (∀ k, 50502 ≤ k → k < 50502 → (s.linesAt k).echo = false) ∧
    (∀ k, 50502 ≤ k → k < 50503 → (s.linesAt k).echo = true) ∧ (s.linesAt 50503).echo = false := by
  intro s
  obtain ⟨at_high, at_low⟩ := linesAt_replicate_append (s := s) (n := 50502) (rest := []) rfl
  refine ⟨taking_takesWord _, ?_, by decide, by decide, fun k h1 h2 => by omega, ?_, by rw [at_low]; rfl⟩
  · intro k hk
    cases k with
    | zero => rfl
    | succ k =>
      by_cases h : k < 50502
      · rw [at_high k h]; rfl
      · obtain rfl : k = 50502 := by omega
        rw [at_low]; rfl
  · intro k h1 h2
    obtain rfl : k = 50502 := by omega
    rw [at_high 50501 (by decide)]; rfl
theorem witness_MeasNeverEndsWithoutItsEcho :
    let s := takingFor (encode (.meas 2#3 0#32)) 60000 false
    s.takesWord (encode (.meas 2#3 0#32)) ∧ s.noResetFor 60001 ∧ 0 < 60001 ∧
    ¬ (∃ e g, 50502 ≤ e ∧ e < g ∧ g < 60001 ∧ (s.linesAt e).echo = true ∧ (s.linesAt g).echo = false) := by
  intro s
  refine ⟨⟨rfl, rfl, rfl, rfl⟩, noResetFor_of_replicate rfl rfl rfl, by decide, ?_⟩
  rintro ⟨e, g, h1, h2, h3, h4, _⟩
  obtain ⟨k, rfl⟩ : ∃ k, e = k + 1 := ⟨e - 1, by omega⟩
  rw [linesAt_replicate (s := s) (l := line false) (n := 60000) rfl (by omega)] at h4
  exact absurd h4 (by decide)
theorem witness_HangsWaitingForTheRise :
    let s : State := { inPhase .waitRise 5#32 false with coming := List.replicate 9 (line false) }
    s.phase = .waitRise ∧ s.noResetFor 10 ∧ (∀ k, k < 10 → (s.linesAt k).echo = false) ∧ 0 < 10 := by decide
theorem witness_HangsWaitingForTheFall :
    let s : State := { inPhase .measure 5#32 true with coming := List.replicate 9 (line true) }
    s.phase = .measure ∧ s.noResetFor 10 ∧ (∀ k, k < 10 → (s.linesAt k).echo = true) ∧ 0 < 10 := by decide
theorem witness_DlyDelaysItsSeconds :
    (let s := takingFor (encode (.dly 0#32)) 1 true; s.takesWord (encode (.dly 0#32)) ∧
      s.noResetFor (max (50000000 * (0#32).toNat) 1 + 1)) ∧
    (let s := takingFor (encode (.dly 85#32)) (max (50000000 * (85#32).toNat) 1) true; s.takesWord (encode (.dly 85#32)) ∧
      (85#32).toNat ≤ 85 ∧
      s.noResetFor (max (50000000 * (85#32).toNat) 1 + 1)) :=
  ⟨⟨⟨rfl, rfl, rfl, rfl⟩, noResetFor_of_replicate rfl rfl rfl⟩,
    ⟨⟨rfl, rfl, rfl, rfl⟩, by decide, noResetFor_of_replicate rfl rfl rfl⟩⟩
theorem witness_UnreadLinesHaveNoEffect :
    ((inPhase .measure 5#32 true).phase ≠ .ready ∧
      ({ line true with sw := 0#10, btn := 0#2, cmdValid := true } : Lines).echo =
        (inPhase .measure 5#32 true).lines.echo) ∧
    ((inPhase .quiet 5#32 true).phase ≠ .ready ∧ ¬ ((inPhase .quiet 5#32 true).phase = .waitRise ∨
      (inPhase .quiet 5#32 true).phase = .measure)) ∧
    ((taking 0x1000000009#40).phase = .ready ∧
      ∀ x, decode (taking 0x1000000009#40).lines.cmd ≠ .ok (.inBtn x) ∧
        decode (taking 0x1000000009#40).lines.cmd ≠ .ok (.inSw x) ∧
        decode (taking 0x1000000009#40).lines.cmd ≠ .ok (.inEcho x)) := by
  refine ⟨⟨by decide, rfl⟩, by decide, rfl, fun x => ?_⟩
  rw [show decode (taking 0x1000000009#40).lines.cmd = .ok (.enc 9#32) by decide]
  simp
theorem witness_PinsChangeOnlyByTheirWriters :
    (∃ t, step (taking 0x8679A4B099#40) = .next t ∧ t.hex = 0x79A4B099#32) ∧
    (∃ t, step (taking 0x8500000001#40) = .next t ∧ t.led = 1#10) ∧
    (∃ t, step (taking 0x4000008DA8#40) = .next t ∧ t.led = 0#10) ∧
    (∃ t, step (inPhase .measure 36264#32 false) = .next t ∧ t.led = 1#10) ∧
    (∃ t, step (taking 0x8400000001#40) = .next t ∧ t.trig = true) ∧
    (∃ t, step (inPhase .quiet 50000#32 true) = .next t ∧ t.trig = true) ∧
    base.hex = 0xFFFFFFFF#32 ∧ base.led = 0x155#10 ∧ base.trig = false :=
  ⟨next_of_after (by decide), next_of_after (by decide), next_of_after (by decide), next_of_after (by decide),
    next_of_after (by decide), next_of_after (by decide), rfl, rfl, rfl⟩
theorem witness_ResultsChangeOnlyByTheirWriters :
    (∃ t, step (taking 0x4000047BEB#40) = .next t ∧ (t.pulse, t.dist, t.ovf) = (293867#32, 10000#32, true)) ∧
    (∃ t, step (taking 0x9000000000#40) = .next t ∧ t.cerr = true) ∧
    (∃ t, step (taking 0x5200000000#40) = .next t ∧ t.f = 2#3) ∧
    (∃ t, step (taking 0x6000000055#40) = .next t ∧ t.nt = 0xFD51DA80#32) ∧
    base.pulse = 0#32 ∧ base.cerr = false ∧ base.f = 0#3 ∧ base.nt = 0#32 :=
  ⟨next_of_after (by decide), next_of_after (by decide), next_of_after (by decide), next_of_after (by decide),
    rfl, rfl, rfl, rfl⟩
theorem witness_EveryTickKeepsTheInvariant :
    base.Inv ∧ (inPhase .quiet 9#32 true).Inv ∧
    ({ base with pulse := 36264#32, dist := 12#32, rspv := true } : State).Inv ∧
    ∃ t, step base = .next t ∧ t.tick = 1#32 :=
  ⟨by decide, by decide, by decide, next_of_after (by decide)⟩
theorem witness_ComposerLaws : 9 < 10 ∧ compose rfb 10000 false = compose rfb 0 false := by decide
theorem witness_BandIsTheThousandsOfTheReading :
    2 ^ 32 - 1 < 2 ^ 32 ∧ band rfb 2#3 29386 = some 0 ∧ band rfb 2#3 29387 = some 1 ∧
    band rfb 2#3 264480 = some 8 ∧ band rfb 2#3 293866 = some 9 ∧ band rfb 2#3 293867 = none := by decide
theorem witness_OverflowThresholds :
    ovfOf rfb 0#3 293866 = false ∧ ovfOf rfb 0#3 293867 = true ∧ ovfOf rfb 4#3 2938669 = false ∧
    ovfOf rfb 4#3 2938670 = true ∧ ovfOf rfb 1#3 29386699 = false ∧ ovfOf rfb 1#3 29386700 = true ∧
    ovfOf rfb 5#3 293866995 = false ∧ ovfOf rfb 5#3 293866996 = true := by decide

/-- Host parameters with the suggested pressed level (93_implementation_defined.md G5), both policies. -/
def lowPressed (policy : ExtremaPolicy) : HostParams :=
  { pressedLevel := false, policy := policy, lowInit := 10000#32 }

/-- A host at a point of its program. -/
def hostAt (a : Activity) (btn : BitVec 2) (sw : BitVec 10) : HostState :=
  { hostStart (lowPressed .twoIfs) with doing := a, btn := btn, sw := sw }

/-- Each clause: button words 3 and 0 (neither, both), 2 (only Button1), 1 (only Button2), LoadMode off and on. -/
theorem witness_HostDispatchesOneButton :
    (hostAt (.idling true true) 2#2 0#10).doing = .idling true true ∧
    (∀ b ∈ [3#2, 0#2], (b.getLsbD 0 = false) = (b.getLsbD 1 = false)) ∧
    ((2#2).getLsbD 0 = false ∧ (2#2).getLsbD 1 ≠ false) ∧ ((1#2).getLsbD 0 ≠ false ∧ (1#2).getLsbD 1 = false) ∧
    ((0x0A4#10).getLsbD 4 = false ∧ (0x010#10).getLsbD 4 = true) := by
  refine ⟨rfl, ?_, by decide, by decide, by decide⟩
  intro b hb
  simp only [List.mem_cons, List.not_mem_nil, or_false] at hb
  rcases hb with rfl | rfl <;> decide
/-- The buttons first and the switches first; the release wait with neither, either and both buttons down. -/
theorem witness_HostPollsItsLines :
    (∀ bf ∈ [true, false], (hostAt (.idling bf false) 3#2 0#10).doing = .idling bf false) ∧
    (hostAt .releasing 3#2 0#10).doing = .releasing ∧
    ((3#32).getLsbD 0 ≠ (lowPressed .twoIfs).pressedLevel ∧ (3#32).getLsbD 1 ≠ (lowPressed .twoIfs).pressedLevel) ∧
    (∀ d ∈ [0#32, 1#32, 2#32], ¬ (d.getLsbD 0 ≠ (lowPressed .twoIfs).pressedLevel ∧
      d.getLsbD 1 ≠ (lowPressed .twoIfs).pressedLevel)) :=
  ⟨fun _ _ => rfl, rfl, by decide, forall_of_all (by decide)⟩

/-- R188: one button still down keeps the host in the release wait; both up end it. -/
theorem test_release_wait :
    (hostReply (lowPressed .twoIfs) (hostAt .releasing 0#2 0#10) 2#32).doing = .releasing ∧
    (hostReply (lowPressed .twoIfs) (hostAt .releasing 0#2 0#10) 1#32).doing = .releasing ∧
    (hostReply (lowPressed .twoIfs) (hostAt .releasing 0#2 0#10) 3#32).doing ≠ .releasing := by decide

/-- R186: slots 1 and 3 of the centimetre mode, slot 2 left out. -/
theorem test_load_show_slots :
    (hostReply (lowPressed .twoIfs) { hostAt (.idling true true) 2#2 0#10 with
      slotsCm := #v[11#32, 12#32, 13#32, 14#32, 15#32] } 0x0B0#32).doing =
      .fetching (.label .cm) [.label .sv1, .stored 11#32, .label .sv3, .stored 13#32] := by decide

/-- R185: the same two slots in the metre mode; the centimetre slots and slot 2 keep their words. -/
theorem test_save_reset :
    (let h := hostReply (lowPressed .twoIfs) { hostAt (.idling true true) 1#2 0#10 with
        slotsCm := #v[11#32, 12#32, 13#32, 14#32, 15#32], slotsM := #v[21#32, 22#32, 23#32, 24#32, 25#32]
        highest := 7#32 } 0x0A2#32;
      (h.doing, h.slotsCm, h.slotsM, h.highest, h.lowest)) =
      (.releasing, #v[11#32, 12#32, 13#32, 14#32, 15#32],
        #v[0xFFFFFFFF#32, 22#32, 0xFFFFFFFF#32, 24#32, 25#32], 0#32, 10000#32) := by decide
theorem witness_HostCaptureStep :
    (hostAt (.measuring true) 2#2 0x0A4#10).doing = .measuring true ∧
    (hostAt (.wording true 9999#32) 2#2 0x0A4#10).doing = .wording true 9999#32 ∧
    (hostAt (.presenting true 10000#32 0#32) 2#2 0x0A4#10).doing = .presenting true 10000#32 0#32 ∧
    (hostAt .rereading 2#2 0x001#10).doing = .rereading ∧ 10000 ≤ (10000#32).toNat ∧ (9999#32).toNat < 10000 :=
  ⟨rfl, rfl, rfl, rfl, by decide, by decide⟩
/-- A host with HI at 7 and LO at 4, under either policy. -/
def ranged (policy : ExtremaPolicy) : HostState :=
  { hostStart (lowPressed policy) with highest := 7#32, lowest := 4#32 }

/-- Each arm of R183: a capture above Highest, one below Lowest, a tie with each. -/
theorem witness_HostExtremaFollowThePolicy :
    (lowPressed .twoIfs).policy = .twoIfs ∧ (lowPressed .elseIf).policy = .elseIf ∧
    (ranged .elseIf).highest.toNat < (8#32).toNat ∧
    (¬ (ranged .elseIf).highest.toNat < (3#32).toNat ∧ (3#32).toNat < (ranged .elseIf).lowest.toNat) ∧
    (∀ d ∈ [4#32, 7#32], ¬ (ranged .elseIf).highest.toNat < d.toNat ∧
      ¬ d.toNat < (ranged .elseIf).lowest.toNat) ∧
    (∀ policy ∈ [ExtremaPolicy.twoIfs, .elseIf], (hostStart (lowPressed policy)).highest = 0#32 ∧
      (hostStart (lowPressed policy)).lowest = (lowPressed policy).lowInit) :=
  ⟨rfl, rfl, by decide, by decide, forall_of_all (by decide), fun _ _ => ⟨rfl, rfl⟩⟩

/-- R183 under `else_if`: a capture below Lowest becomes Lowest, a tie changes nothing. -/
theorem test_extrema_else_if :
    [3#32, 4#32, 7#32].map (fun d =>
      let h := (ranged .elseIf).updateExtrema (lowPressed .elseIf) d; (h.highest, h.lowest)) =
      [(7#32, 3#32), (7#32, 4#32), (7#32, 4#32)] := by decide

/-- X7: captures 5, 7, 3 under both policies. -/
theorem test_extrema :
    (let h := [5#32, 7#32].foldl (fun h d => HostState.updateExtrema (lowPressed .twoIfs) h d)
        (hostStart (lowPressed .twoIfs)); (h.highest, h.lowest) = (7#32, 5#32)) ∧
    (let h := [5#32, 7#32, 3#32].foldl (fun h d => HostState.updateExtrema (lowPressed .elseIf) h d)
        (hostStart (lowPressed .elseIf)); (h.highest, h.lowest) = (7#32, 3#32)) := by decide
theorem witness_HostRunsTimedSequences :
    (∀ x ∈ [Shown.label .hi, .composed 1234#32, .stored 0xFFFFFFFF#32],
      (hostAt (showFrom [x]) 3#2 0x010#10).doing = showFrom [x]) := by decide

/-- A measurement in progress with the host waiting for it. -/
def busySystem : System :=
  { block := inPhase .quiet 9#32 true
    host := { hostAt (.measuring true) 2#2 0x0A4#10 with waiting := true } }

theorem witness_SystemKeepsThePortDiscipline :
    busySystem.Inv ∧ ∃ z, busySystem.step (lowPressed .twoIfs) = .next z := by
  refine ⟨by decide, ?_⟩
  unfold System.step
  obtain ⟨t, ht, _⟩ := next_of_after (g := fun t => t.phase) (v := Phase.quiet)
    (s := busySystem.block.driven (busySystem.takeResponse (lowPressed .twoIfs))) (by decide)
  exact ⟨_, by simp only [ht]; rfl⟩

theorem witness_BlockResetLeavesTheHostsMemory :
    ({ busySystem with block := { busySystem.block with lines := { line true with rst := true } } } :
      System).block.lines.rst = true := rfl

end Sys2Proof.Tests
end

section
/-!
PROOFS. The command port's acceptance, runs under an invariant, and a measurement that goes on until its echo has
risen and fallen (statements of 00_scope.md).
-/
namespace Sys2Proof.Machine

/-! ### Acceptance -/

/-- A taken word is an accepted one (R35). -/
theorem State.accepts_of_takesWord {s : State} {w : CmdWord} (h : s.takesWord w) : s.accepts = true := by
  obtain ⟨hrst, hvalid, -, hready⟩ := h
  exact s.accepts_iff.mpr ⟨hready, hrst, hvalid⟩

/-- The tick that takes the word of an operation (R35). -/
theorem step_of_takesWord {s : State} {w : CmdWord} {i : Instr} (h : s.takesWord w) (hd : decode w = .ok i) :
    step s = closeTick (exec i s) := by
  have haccepts := State.accepts_of_takesWord h
  obtain ⟨-, -, rfl, -⟩ := h
  exact step_of_decode haccepts hd

/-- Settles O5: acceptance is `closeTick` after `exec`, and `advance` touches the counter and the environment only. -/
theorem stepRunsTheAcceptedOperation : Obligations.StepRunsTheAcceptedOperation := by
  constructor
  · intro s w i h hd
    rw [step_of_takesWord h hd]
    cases exec i s <;> rfl
  · intro s
    exact ⟨rfl, s.linesAt_advance, rfl⟩

/-! ### Ticks and runs -/

@[simp] theorem State.noResponse_sinceT0 (s : State) : s.noResponse.sinceT0 = s.sinceT0 := rfl

/-- The time since T0 grows by one at a tick's end (R21, R170). -/
theorem State.sinceT0_advance (s : State) : s.advance.sinceT0 = s.sinceT0 + 1#32 := by
  simp only [State.sinceT0, State.advance_tick, State.advance_t0]
  bv_omega

/-- A tick of a phase moves the levels on by one tick. -/
theorem State.linesAt_phaseTick_advance (s : State) (k : Nat) :
    s.phaseTick.advance.linesAt k = s.linesAt (k + 1) := by
  obtain ⟨-, hlines, hcoming, hdraws⟩ := phaseTick_keeps s
  rw [State.linesAt_advance, State.linesAt_congr hlines hcoming hdraws]

/-- What holds now and is carried on by each of the next `n` ticks holds after them. -/
theorem exists_runTicks_of_invariant {I : Nat → State → Prop} {s : State} {n : Nat} (h0 : I 0 s)
    (hstep : ∀ k t, k < n → I k t → ∃ u, step t = .next u ∧ I (k + 1) u) :
    ∃ t, runTicks n s = .next t ∧ I n t := by
  induction n with
  | zero => exact ⟨s, rfl, h0⟩
  | succ n ih =>
    obtain ⟨t, ht, hI⟩ := ih fun k t hk => hstep k t (by omega)
    obtain ⟨u, hu, hI'⟩ := hstep n t (by omega) hI
    exact ⟨u, runTicks_snoc ht hu, hI'⟩

/-! ### A measurement under way -/

/-- The word of MEAS decodes to it (R71, R72, R73). -/
theorem decode_encode_meas (f : Flags) (x : Word) : decode (encode (.meas f x)) = .ok (.meas f x) := by
  have hflags : (f.setWidth 4).extractLsb' 0 3 = f := by revert f; decide
  simp [decode, encode, Instr.opc, Instr.modifier, Instr.argument, opcField_packCommand, modField_packCommand,
    argField_packCommand, withFlags, hflags]

/-- The phase in which `t` stands `k` ticks after `s` took a MEAS, and what bounds `k` in it: the waits of QUIET and
TRIGGER have fixed lengths (R129, R130), and MEASURE is reached over an echo that was high (R131). -/
inductive MeasStage (s : State) (k : Nat) (t : State) : Prop where
  | quiet (phase : t.phase = .quiet) (since : t.sinceT0.toNat = k) (le : k ≤ 50000)
  | trigger (phase : t.phase = .trigger) (since : t.sinceT0.toNat + 50000 = k) (le : k ≤ 50501)
  | waitRise (phase : t.phase = .waitRise) (ge : 50502 ≤ k)
  | measure (phase : t.phase = .measure) (e : Nat) (ge : 50502 ≤ e) (lt : e < k)
      (rise : (s.linesAt e).echo = true)

/-- `t` stands `k` ticks after `s` took a MEAS, which has given no response yet. -/
structure MeasUnderWay (s : State) (k : Nat) (t : State) : Prop where
  lines : ∀ j, t.linesAt j = s.linesAt (k + j)
  silent : t.rspv = false
  stage : MeasStage s k t

/-- Some echo, high from the end of TRIGGER on at the earliest, has been seen to fall within `n` ticks (R131, R132). -/
def State.echoFellWithin (s : State) (n : Nat) : Prop :=
  ∃ e g, 50502 ≤ e ∧ e < g ∧ g < n ∧ (s.linesAt e).echo = true ∧ (s.linesAt g).echo = false

theorem MeasStage.not_ready {s t : State} {k : Nat} (h : MeasStage s k t) : t.phase ≠ .ready := by
  cases h <;> simp [*]

/-- The tick that takes MEAS starts the measurement (R128). -/
theorem step_takes_meas {s : State} {f : Flags} {x : Word} (h : s.takesWord (encode (.meas f x))) :
    ∃ t, step s = .next t ∧ MeasUnderWay s 1 t := by
  refine ⟨_, step_of_takesWord h (decode_encode_meas f x), ?_, rfl, .quiet rfl ?_ (by decide)⟩
  · intro j
    rw [State.linesAt_advance, Nat.add_comm 1 j]
    exact State.linesAt_congr rfl rfl rfl _
  · rw [State.sinceT0_advance]
    simp [State.sinceT0]

/-- One tick of QUIET (R129). -/
theorem MeasStage.quiet_tick {s t : State} {k : Nat} (hphase : t.phase = .quiet) (hsince : t.sinceT0.toNat = k)
    (hle : k ≤ 50000) : t.phaseTick.rspv = false ∧ MeasStage s (k + 1) t.phaseTick.advance := by
  have htick : t.phaseTick = t.quietTick := by simp [State.phaseTick, hphase]
  rw [htick, State.quietTick]
  split
  case isTrue hend =>
    have : 50000 ≤ t.sinceT0.toNat := hend
    exact ⟨rfl, .trigger rfl (by rw [State.sinceT0_advance]; simp [State.sinceT0]; omega) (by omega)⟩
  case isFalse hwait =>
    have : ¬ 50000 ≤ t.sinceT0.toNat := hwait
    exact ⟨rfl, .quiet hphase (by rw [State.sinceT0_advance, State.noResponse_sinceT0]; bv_omega) (by omega)⟩

/-- One tick of TRIGGER (R130). -/
theorem MeasStage.trigger_tick {s t : State} {k : Nat} (hphase : t.phase = .trigger)
    (hsince : t.sinceT0.toNat + 50000 = k) (hle : k ≤ 50501) :
    t.phaseTick.rspv = false ∧ MeasStage s (k + 1) t.phaseTick.advance := by
  have htick : t.phaseTick = t.triggerTick := by simp [State.phaseTick, hphase]
  rw [htick, State.triggerTick]
  split
  case isTrue hend =>
    have : 501 ≤ t.sinceT0.toNat := hend
    exact ⟨rfl, .waitRise rfl (by omega)⟩
  case isFalse hwait =>
    have : ¬ 501 ≤ t.sinceT0.toNat := hwait
    exact ⟨rfl, .trigger hphase (by rw [State.sinceT0_advance, State.noResponse_sinceT0]; bv_omega) (by omega)⟩

/-- One tick of WAIT_RISE (R131). -/
theorem MeasStage.waitRise_tick {s t : State} {k : Nat} (hphase : t.phase = .waitRise) (hge : 50502 ≤ k)
    (hnow : t.lines = s.linesAt k) : t.phaseTick.rspv = false ∧ MeasStage s (k + 1) t.phaseTick.advance := by
  have htick : t.phaseTick = t.waitRiseTick := by simp [State.phaseTick, hphase]
  rw [htick, State.waitRiseTick]
  split
  case isTrue hhigh => exact ⟨rfl, .measure rfl k hge (by omega) (hnow ▸ hhigh)⟩
  case isFalse => exact ⟨rfl, .waitRise hphase (by omega)⟩

/-- One tick of MEASURE with the echo still high (R132). -/
theorem MeasStage.measure_tick {s t : State} {k e : Nat} (hphase : t.phase = .measure) (hge : 50502 ≤ e)
    (hlt : e < k) (hrise : (s.linesAt e).echo = true) (hhigh : t.lines.echo = true) :
    t.phaseTick.rspv = false ∧ MeasStage s (k + 1) t.phaseTick.advance := by
  have htick : t.phaseTick = t.noResponse := by simp [State.phaseTick, hphase, State.measureTick, hhigh]
  rw [htick]
  exact ⟨rfl, .measure hphase e hge (by omega) hrise⟩

/-- While no echo has risen and fallen, a tick without reset leaves the measurement under way. -/
theorem MeasUnderWay.next_tick {s t : State} {k n : Nat} (h : MeasUnderWay s k t) (hk : k < n)
    (hrst : (s.linesAt k).rst = false) (hecho : ¬ s.echoFellWithin n) :
    ∃ u, step t = .next u ∧ MeasUnderWay s (k + 1) u := by
  obtain ⟨hlines, -, hstage⟩ := h
  have hnow : t.lines = s.linesAt k := hlines 0
  have hnext : t.phaseTick.rspv = false ∧ MeasStage s (k + 1) t.phaseTick.advance := by
    cases hstage with
    | quiet hphase hsince hle => exact MeasStage.quiet_tick hphase hsince hle
    | trigger hphase hsince hle => exact MeasStage.trigger_tick hphase hsince hle
    | waitRise hphase hge => exact MeasStage.waitRise_tick hphase hge hnow
    | measure hphase e hge hlt hrise =>
      have hhigh : t.lines.echo = true := by
        by_contra hlow
        exact hecho ⟨e, k, hge, hlt, hk, hrise, by simpa [hnow] using hlow⟩
      exact MeasStage.measure_tick hphase hge hlt hrise hhigh
  refine ⟨_, step_of_phase (hnow ▸ hrst) (State.accepts_of_busy hstage.not_ready), ?_, hnext.1, hnext.2⟩
  intro j
  rw [State.linesAt_phaseTick_advance, hlines, Nat.add_right_comm, Nat.add_assoc]

/-- Settles O26: the measurement stays under way in every tick, by induction on the ticks after its acceptance. -/
theorem measNeverEndsWithoutItsEcho : Obligations.MeasNeverEndsWithoutItsEcho := by
  intro s f x n htake hrst hpos hecho
  obtain ⟨m, rfl⟩ : ∃ m, n = m + 1 := ⟨n - 1, by omega⟩
  obtain ⟨t, ht, hstart⟩ := step_takes_meas htake
  obtain ⟨u, hu, hway⟩ := exists_runTicks_of_invariant (I := fun k => MeasUnderWay s (k + 1)) (n := m) hstart
    fun k v hk hv => hv.next_tick (by omega) (hrst (k + 1) (by omega)) hecho
  exact ⟨u, (runTicks_of_step ht m).trans hu, hway.silent, hway.stage.not_ready⟩

end Sys2Proof.Machine
end

section
/-!
PROOFS. Legal and illegal words: a word that decodes is the encoding of its operation, a word that does not is one of
R205's, and the encoding of an operation is one exactly where R75 forbids its argument.
-/
namespace Sys2Proof.Machine

/-! ### Words that decode -/

/-- The operation code (as a number), the modifier and the argument of an operation (R71). -/
def HasFields (i : Instr) (opc : Nat) (m : BitVec 4) (a : Word) : Prop :=
  i.opc.toNat = opc ∧ i.modifier = m ∧ i.argument = a

theorem hasFields_of_withZeroModifier {m : BitVec 4} {i j : Instr} {opc : Nat} {a : Word}
    (hi : HasFields i opc 0#4 a) (h : withZeroModifier m i = .ok j) : HasFields j opc m a := by
  unfold withZeroModifier at h
  split at h <;> cases h
  exact ‹m = 0#4› ▸ hi

/-- A legal flags nibble is its three flags under a reserved 0 (R73). -/
theorem hasFields_of_withFlags {m : BitVec 4} {i : Flags → Instr} {j : Instr} {opc : Nat} {a : Word}
    (hi : ∀ f, HasFields (i f) opc (f.setWidth 4) a) (h : withFlags m i = .ok j) : HasFields j opc m a := by
  have nibble : ∀ m : BitVec 4, ¬ m.getLsbD 3 = true → (m.extractLsb' 0 3).setWidth 4 = m := by decide
  unfold withFlags at h
  split at h <;> cases h
  have hflags := hi (m.extractLsb' 0 3)
  rwa [nibble m ‹_›] at hflags

theorem hasFields_of_decodeIn {m : BitVec 4} {a : Word} {i : Instr} (h : decodeIn m a = .ok i) :
    HasFields i 7 m a := by
  unfold decodeIn at h
  split at h <;> cases h
  all_goals exact ⟨rfl, BitVec.eq_of_toNat_eq (Eq.symm ‹_›), rfl⟩

theorem hasFields_of_decodeOut {m : BitVec 4} {a : Word} {i : Instr} (h : decodeOut m a = .ok i) :
    HasFields i 8 m a := by
  unfold decodeOut at h
  split at h <;> cases h
  all_goals exact ⟨rfl, BitVec.eq_of_toNat_eq (Eq.symm ‹_›), rfl⟩

/-- Every row of the table decodes to an operation with the word's own fields (R71, R72). -/
theorem hasFields_of_decode {w : CmdWord} {i : Instr} (h : decode w = .ok i) :
    HasFields i (opcField w).toNat (modField w) (argField w) := by
  unfold decode at h
  split at h
  case h_1 hopc | h_3 hopc | h_6 hopc => rw [hopc]; exact hasFields_of_withZeroModifier ⟨rfl, rfl, rfl⟩ h
  case h_2 hopc | h_4 hopc | h_5 hopc => rw [hopc]; exact hasFields_of_withFlags (fun _ => ⟨rfl, rfl, rfl⟩) h
  case h_7 hopc => rw [hopc]; exact hasFields_of_decodeIn h
  case h_8 hopc => rw [hopc]; exact hasFields_of_decodeOut h
  case h_9 => cases h

/-- A word that decodes is the encoding of what it decodes to (R71, R72). -/
theorem encode_of_decode {w : CmdWord} {i : Instr} (h : decode w = .ok i) : encode i = w := by
  obtain ⟨hopc, hmod, harg⟩ := hasFields_of_decode h
  rw [encode, BitVec.eq_of_toNat_eq hopc, hmod, harg, packCommand_fields]

/-! ### Words that R205 rejects -/

theorem withZeroModifier_eq_error {m : BitVec 4} {i : Instr} {e : CommandError}
    (h : withZeroModifier m i = .error e) : m.toNat ≠ 0 := by
  rintro hm
  obtain rfl : m = 0#4 := BitVec.eq_of_toNat_eq hm
  cases h

theorem withFlags_eq_error {m : BitVec 4} {i : Flags → Instr} {e : CommandError} (h : withFlags m i = .error e) :
    8 ≤ m.toNat := by
  have reserved : ∀ m : BitVec 4, m.getLsbD 3 = true → 8 ≤ m.toNat := by decide
  unfold withFlags at h
  split at h
  case isTrue hm => exact reserved m hm
  case isFalse => cases h

theorem decodeIn_eq_error {m : BitVec 4} {a : Word} {e : CommandError} (h : decodeIn m a = .error e) :
    10 ≤ m.toNat := by
  unfold decodeIn at h
  split at h <;> cases h
  simp only [imp_false] at *
  omega

theorem decodeOut_eq_error {m : BitVec 4} {a : Word} {e : CommandError} (h : decodeOut m a = .error e) :
    m.toNat ≠ 4 ∧ m.toNat ≠ 5 ∧ m.toNat ≠ 6 := by
  unfold decodeOut at h
  split at h <;> cases h
  exact ⟨‹_›, ‹_›, ‹_›⟩

/-- A word the decoder rejects is one R205 (1) or (2) names. -/
theorem illegalCommand_of_decode_error {w : CmdWord} {e : CommandError} (h : decode w = .error e) :
    IllegalCommand w := by
  show IllegalFields (opcField w).toNat (modField w).toNat (argField w).toNat
  unfold decode at h
  split at h
  case h_1 | h_3 | h_6 => have := withZeroModifier_eq_error h; unfold IllegalFields; omega
  case h_2 | h_4 | h_5 => have := withFlags_eq_error h; unfold IllegalFields; omega
  case h_7 => have := decodeIn_eq_error h; unfold IllegalFields; omega
  case h_8 => have := decodeOut_eq_error h; unfold IllegalFields; omega
  case h_9 =>
    unfold IllegalFields
    simp only [imp_false] at *
    omega

/-- The causes of R205, on the fields an operation is encoded with. -/
theorem illegalCommand_encode_iff_fields (i : Instr) :
    IllegalCommand (encode i) ↔ IllegalFields i.opc.toNat i.modifier.toNat i.argument.toNat := by
  show IllegalFields (opcField (encode i)).toNat (modField (encode i)).toNat (argField (encode i)).toNat ↔ _
  rw [encode, opcField_packCommand, modField_packCommand, argField_packCommand]

theorem literalIndexLegal_iff (a : Word) : literalIndexLegal a = true ↔ a.toNat ≤ 10 := decide_eq_true_iff

/-- A delay fits where its ticks do (R166). -/
theorem delayLegal_iff (a : Word) : delayLegal rfb a = true ↔ 50000000 * a.toNat < 2 ^ 32 := decide_eq_true_iff

/-- The encoding of an operation is rejected exactly where R75 forbids its argument (R205 (3)). -/
theorem illegalCommand_encode_iff (i : Instr) : IllegalCommand (encode i) ↔ i.wf = false := by
  have nibble : ∀ f : Flags, (f.setWidth 4).toNat < 8 := by decide
  rw [illegalCommand_encode_iff_fields]
  cases i with
  | cmp f _ | conv f _ | meas f _ =>
    simpa [IllegalFields, Instr.opc, Instr.modifier, Instr.wf] using nibble f
  | lit a =>
    simp [IllegalFields, Instr.opc, Instr.modifier, Instr.argument, Instr.wf, Bool.eq_false_iff, literalIndexLegal_iff]
  | dly a =>
    simp [IllegalFields, Instr.opc, Instr.modifier, Instr.argument, Instr.wf, Bool.eq_false_iff, delayLegal_iff]
  | _ => simp [IllegalFields, Instr.opc, Instr.modifier, Instr.wf]

end Sys2Proof.Machine
end

section
/-!
PROOFS. What the sequencer can do in a tick without reset, said once for all operations and phases, and which of its
actions writes which register.
-/
namespace Sys2Proof.Machine

/-! ### The sequencer's actions -/

/-- The states the sequencer can leave in a tick without reset, before the counter and the environment act: each of its
actions with the condition under which it is taken (R8 (2), R28, R35, R206). The data of an answer, and why a phase goes
on, are left to the laws of the operations and the phases. -/
inductive SequencerTick (s : State) : State → Prop where
  /-- nothing is accepted, and the phase goes on -/
  | wait (idle : s.accepts = false) : SequencerTick s s.noResponse
  /-- ENC, CMP, LIT and IN: a response and no register -/
  | answer (data : Word) (accepted : s.accepts = true) : SequencerTick s (s.respond false data)
  /-- a word that R205 rejects -/
  | reject (cause : CommandError) (accepted : s.accepts = true) (illegal : IllegalCommand s.lines.cmd) :
    SequencerTick s (s.raiseCommandError cause)
  | conv (f : Flags) (a : Word) (takes : s.takesWord (encode (.conv f a))) : SequencerTick s (s.finishReading f a)
  | meas (f : Flags) (x : Word) (takes : s.takesWord (encode (.meas f x))) :
    SequencerTick s { s.noResponse with f := f, trig := false, t0 := s.tick, phase := .quiet }
  | dly (a : Word) (takes : s.takesWord (encode (.dly a))) (legal : 50000000 * a.toNat < 2 ^ 32) :
    SequencerTick s { s.noResponse with nt := BitVec.ofNat 32 (delayTicks rfb a), t0 := s.tick, phase := .delay }
  | outTrig (a : Word) (takes : s.takesWord (encode (.outTrig a))) :
    SequencerTick s ((s.writeTrig a).respond false 0#32)
  | outLed (a : Word) (takes : s.takesWord (encode (.outLed a))) : SequencerTick s ((s.writeLed a).respond false 0#32)
  | outHex (a : Word) (takes : s.takesWord (encode (.outHex a))) : SequencerTick s ((s.writeHex a).respond false 0#32)
  | quietEnd (quiet : s.phase = .quiet) (elapsed : 50000 ≤ s.sinceT0.toNat) :
    SequencerTick s { s.noResponse with trig := true, t0 := s.tick, phase := .trigger }
  | triggerEnd (trigger : s.phase = .trigger) (elapsed : 501 ≤ s.sinceT0.toNat) :
    SequencerTick s { s.noResponse with trig := false, phase := .waitRise }
  | rise (waitRise : s.phase = .waitRise) (high : s.lines.echo = true) :
    SequencerTick s { s.noResponse with t0 := s.tick, phase := .measure }
  | fall (measure : s.phase = .measure) (low : s.lines.echo = false) :
    SequencerTick s { s.finishReading s.f s.sinceT0 with phase := .ready }
  | delayEnd (delay : s.phase = .delay) (elapsed : s.nt.toNat ≤ s.sinceT0.toNat) :
    SequencerTick s { s.respond false 0#32 with phase := .ready }

/-- An accepted word is taken (R35). -/
theorem State.takesWord_of_accepts {s : State} (h : s.accepts = true) : s.takesWord s.lines.cmd := by
  obtain ⟨hready, hrst, hvalid⟩ := s.accepts_iff.mp h
  exact ⟨hrst, hvalid, rfl, hready⟩

/-- An operation whose argument R75 forbids stands in an illegal word. -/
theorem illegalCommand_of_takesWord {s : State} {i : Instr} (h : s.takesWord (encode i)) (hwf : i.wf = false) :
    IllegalCommand s.lines.cmd := by
  obtain ⟨-, -, hcmd, -⟩ := h
  rw [hcmd]
  exact (illegalCommand_encode_iff i).mpr hwf

/-- What an accepted operation does, operation by operation (R72). -/
theorem exec_sequencerTick {s : State} {i : Instr} (h : s.takesWord (encode i)) :
    ∃ u, exec i s = .next u ∧ SequencerTick s u := by
  have haccepts := State.accepts_of_takesWord h
  cases i with
  | enc _ | cmp _ _ | inTick _ | inBtn _ | inSw _ | inEcho _ | inTrig _ | inLed _ | inHex _ | inPulse _ | inDist _
  | inStatus _ => exact ⟨_, rfl, .answer _ haccepts⟩
  | lit a =>
    cases hlegal : literalIndexLegal a with
    | true => exact ⟨_, if_pos hlegal, .answer _ haccepts⟩
    | false => exact ⟨_, if_neg (by simp [hlegal]), .reject _ haccepts (illegalCommand_of_takesWord h hlegal)⟩
  | conv f a => exact ⟨_, rfl, .conv f a h⟩
  | meas f x => exact ⟨_, rfl, .meas f x h⟩
  | dly a =>
    cases hlegal : delayLegal rfb a with
    | true => exact ⟨_, if_pos hlegal, .dly a h ((delayLegal_iff a).mp hlegal)⟩
    | false => exact ⟨_, if_neg (by simp [hlegal]), .reject _ haccepts (illegalCommand_of_takesWord h hlegal)⟩
  | outTrig a => exact ⟨_, rfl, .outTrig a h⟩
  | outLed a => exact ⟨_, rfl, .outLed a h⟩
  | outHex a => exact ⟨_, rfl, .outHex a h⟩

/-- What a tick of a phase does, phase by phase (R129 to R132, R167). -/
theorem phaseTick_sequencerTick {s : State} (h : s.accepts = false) : SequencerTick s s.phaseTick := by
  unfold State.phaseTick
  cases hphase : s.phase with
  | ready => exact .wait h
  | quiet =>
    show SequencerTick s s.quietTick
    unfold State.quietTick
    split
    · exact .quietEnd hphase ‹_›
    · exact .wait h
  | trigger =>
    show SequencerTick s s.triggerTick
    unfold State.triggerTick
    split
    · exact .triggerEnd hphase ‹_›
    · exact .wait h
  | waitRise =>
    show SequencerTick s s.waitRiseTick
    unfold State.waitRiseTick
    split
    · exact .rise hphase ‹_›
    · exact .wait h
  | measure =>
    show SequencerTick s s.measureTick
    unfold State.measureTick
    split
    · exact .wait h
    · exact .fall hphase (Bool.eq_false_iff.mpr ‹_›)
  | delay =>
    show SequencerTick s s.delayTick
    unfold State.delayTick
    split
    · exact .delayEnd hphase ‹_›
    · exact .wait h

/-- A tick without reset is one action of the sequencer, then the counter and the environment (R8). -/
theorem step_sequencerTick {s : State} (hrst : s.lines.rst = false) :
    ∃ u, SequencerTick s u ∧ step s = .next u.advance := by
  obtain ⟨hhigh, -⟩ | ⟨haccepts, i, hdecode, hstep⟩ | ⟨haccepts, e, hdecode, hstep⟩ |
    ⟨-, haccepts, hstep⟩ := step_cases s
  · simp [hrst] at hhigh
  · have htakes := State.takesWord_of_accepts haccepts
    rw [← encode_of_decode hdecode] at htakes
    obtain ⟨u, hexec, htick⟩ := exec_sequencerTick htakes
    exact ⟨u, htick, by rw [hstep, hexec]; rfl⟩
  · exact ⟨_, .reject e haccepts (illegalCommand_of_decode_error hdecode), hstep⟩
  · exact ⟨_, phaseTick_sequencerTick haccepts, hstep⟩

/-- The next state of a tick without reset. -/
theorem sequencerTick_of_step {s t : State} (hrst : s.lines.rst = false) (h : step s = .next t) :
    ∃ u, SequencerTick s u ∧ t = u.advance := by
  obtain ⟨u, htick, hstep⟩ := step_sequencerTick hrst
  exact ⟨u, htick, Host.Outcome.next.inj (h.symm.trans hstep)⟩

/-! ### The writers of each register -/

namespace SequencerTick

variable {s u : State}

/-- The sequencer leaves the tick counter alone (R21). -/
theorem tick_eq (h : SequencerTick s u) : u.tick = s.tick := by
  cases h <;> rfl

/-- HEX is OUT HEX's (R24). -/
theorem hex_writer (h : SequencerTick s u) (hne : u.hex ≠ s.hex) : s.takesWord (encode (.outHex u.hex)) := by
  cases h with
  | outHex a takes => exact takes
  | _ => exact absurd rfl hne

/-- LED is that of OUT LED, CONV and the end of a measurement (R23). -/
theorem led_writer (h : SequencerTick s u) (hne : u.led ≠ s.led) :
    (∃ a, s.takesWord (encode (.outLed a))) ∨ (∃ f a, s.takesWord (encode (.conv f a))) ∨
      (s.phase = .measure ∧ s.lines.echo = false) := by
  cases h with
  | outLed a takes => exact .inl ⟨a, takes⟩
  | conv f a takes => exact .inr (.inl ⟨f, a, takes⟩)
  | fall measure low => exact .inr (.inr ⟨measure, low⟩)
  | _ => exact absurd rfl hne

/-- TRIG is that of OUT TRIG, MEAS and the ends of QUIET and TRIGGER (R22). -/
theorem trig_writer (h : SequencerTick s u) (hne : u.trig ≠ s.trig) :
    (∃ a, s.takesWord (encode (.outTrig a))) ∨ (∃ f x, s.takesWord (encode (.meas f x))) ∨
      (s.phase = .quiet ∧ u.phase = .trigger) ∨ (s.phase = .trigger ∧ u.phase = .waitRise) := by
  cases h with
  | outTrig a takes => exact .inl ⟨a, takes⟩
  | meas f x takes => exact .inr (.inl ⟨f, x, takes⟩)
  | quietEnd quiet _ => exact .inr (.inr (.inl ⟨quiet, rfl⟩))
  | triggerEnd trigger _ => exact .inr (.inr (.inr ⟨trigger, rfl⟩))
  | _ => exact absurd rfl hne

/-- PULSE, DIST and OVF are those of CONV and the end of a measurement (R25 to R27). -/
theorem reading_writer (h : SequencerTick s u) (hne : u.pulse ≠ s.pulse ∨ u.dist ≠ s.dist ∨ u.ovf ≠ s.ovf) :
    (∃ f a, s.takesWord (encode (.conv f a))) ∨ (s.phase = .measure ∧ s.lines.echo = false) := by
  cases h with
  | conv f a takes => exact .inl ⟨f, a, takes⟩
  | fall measure low => exact .inr ⟨measure, low⟩
  | _ => simp at hne

/-- CERR is a rejected word's (R27, R206). -/
theorem cerr_writer (h : SequencerTick s u) (hne : u.cerr ≠ s.cerr) :
    s.accepts = true ∧ IllegalCommand s.lines.cmd := by
  cases h with
  | reject _ accepted illegal => exact ⟨accepted, illegal⟩
  | _ => exact absurd rfl hne

/-- F is MEAS's (R30). -/
theorem f_writer (h : SequencerTick s u) (hne : u.f ≠ s.f) : ∃ x, s.takesWord (encode (.meas u.f x)) := by
  cases h with
  | meas f x takes => exact ⟨x, takes⟩
  | _ => exact absurd rfl hne

/-- NT is DLY's, and holds its ticks (R31). -/
theorem nt_writer (h : SequencerTick s u) (hne : u.nt ≠ s.nt) :
    ∃ a, s.takesWord (encode (.dly a)) ∧ u.nt.toNat = 50000000 * a.toNat := by
  cases h with
  | dly a takes legal => exact ⟨a, takes, by simpa [delayTicks, rfb] using legal⟩
  | _ => exact absurd rfl hne

end SequencerTick

/-! ### The statements about single ticks -/

/-- Settles O7: no action of the sequencer writes TICK, and the tick's end adds one. -/
theorem tickCountsEveryTick : Obligations.TickCountsEveryTick := by
  intro s
  cases hrst : s.lines.rst with
  | true => exact ⟨_, step_reset hrst, rfl⟩
  | false =>
    obtain ⟨u, htick, hstep⟩ := step_sequencerTick hrst
    exact ⟨_, hstep, by simp [htick.tick_eq]⟩

/-- Settles O10: a READY block that accepts nothing has a tick of READY. -/
theorem responseIsWithdrawnAfterOneTick : Obligations.ResponseIsWithdrawnAfterOneTick := by
  intro s hrst hvalid hready
  have haccepts : s.accepts = false := by simp [State.accepts, hvalid]
  have htick : s.phaseTick = s.noResponse := by simp [State.phaseTick, hready]
  rw [step_of_phase hrst haccepts, htick]
  rfl

/-- Settles O31, pin by pin. -/
theorem pinsChangeOnlyByTheirWriters : Obligations.PinsChangeOnlyByTheirWriters := by
  intro s t hrst hstep
  obtain ⟨u, htick, rfl⟩ := sequencerTick_of_step hrst hstep
  exact ⟨htick.hex_writer, htick.led_writer, htick.trig_writer⟩

/-- Settles O32, register by register. -/
theorem resultsChangeOnlyByTheirWriters : Obligations.ResultsChangeOnlyByTheirWriters := by
  intro s t hrst hstep
  obtain ⟨u, htick, rfl⟩ := sequencerTick_of_step hrst hstep
  exact ⟨htick.reading_writer, htick.cerr_writer, htick.f_writer, htick.nt_writer⟩

/-! ### The distance register -/

/-- DIST holds the whole distance (R26, R140 c). -/
theorem toNat_distWord (f : Flags) (p : Word) : (distWord rfb f p).toNat = distanceOf f p.toNat := by
  have hle := distanceOf_le f p.isLt
  rw [distWord_eq, BitVec.toNat_ofNat, Nat.mod_eq_of_lt (by omega)]

/-- Settles O41: the bound of the converter is below the register's range. -/
theorem distanceFitsItsRegister : Obligations.DistanceFitsItsRegister :=
  ⟨fun f p => ⟨toNat_distWord f p, distanceOf_le f p.isLt⟩, by decide⟩

end Sys2Proof.Machine
end

section
/-!
PROOFS. The block's invariant: the reset registers meet it and every action of the sequencer keeps each of its parts.
-/
namespace Sys2Proof.Machine

/-! ### The reset registers -/

/-- Settles O21: the reset state is written out with the table's values (R43). -/
theorem resetStateRegisters : Obligations.ResetStateRegisters := by
  unfold Obligations.ResetStateRegisters
  simp [State.reset]

/-- The reset registers meet the invariant, whatever the lines (R43). -/
theorem State.inv_resetRegisters (s : State) : s.resetRegisters.Inv :=
  ⟨fun hbusy => absurd rfl hbusy, by simp [State.TrigFollowsPhase], ⟨1, by simp⟩,
    by simp [State.ErrorAgrees, State.rspErr], by simp [State.DelayAgrees]⟩

/-- Settles O34: the reset state is made of the reset registers. -/
theorem resetMeetsTheInvariant : Obligations.ResetMeetsTheInvariant :=
  State.inv_resetRegisters State.reset

/-! ### One action of the sequencer -/

/-- A finished reading agrees with itself, under the divisor of its flags (R121, R122). -/
theorem State.readingAgrees_finishReading (s : State) (f : Flags) (p : Word) :
    (s.finishReading f p).ReadingAgrees := by
  obtain ⟨d, hd, hden⟩ := denominatorOf_cases f
  have hdist : (distWord rfb f p).toNat = p.toNat * 34029 / denominatorOf f := toNat_distWord f p
  have hpos : 0 < denominatorOf f := Nat.lt_of_lt_of_le (by decide) (denominatorOf_ge f)
  refine ⟨d, hd, hden ▸ hdist, ?_⟩
  rw [State.finishReading_ovf, State.finishReading_dist, ovfOf_eq, hdist]
  simp only [Nat.le_div_iff_mul_le hpos]

namespace SequencerTick

variable {s u : State}

/-- A response comes with or into READY (R35, R172). -/
theorem busySilent (h : SequencerTick s u) : u.BusySilent := by
  intro hbusy
  cases h with
  | wait | meas | dly | quietEnd | triggerEnd | rise => rfl
  | answer _ accepted | reject _ accepted =>
    obtain ⟨hready, -⟩ := s.accepts_iff.mp accepted
    exact absurd hready hbusy
  | conv _ _ takes | outTrig _ takes | outLed _ takes | outHex _ takes =>
    obtain ⟨-, -, -, hready⟩ := takes
    exact absurd hready hbusy
  | fall | delayEnd => exact absurd rfl hbusy

/-- A command taken or in progress is what makes the block busy or respond after the tick (R35, R172). -/
theorem busy_or_responds_iff (h : SequencerTick s u) :
    (u.phase ≠ .ready ∨ u.rspv = true) ↔ (s.accepts = true ∨ s.phase ≠ .ready) := by
  cases h with
  | wait idle => simp [idle]
  | answer _ accepted | reject _ accepted => simp [accepted]
  | conv _ _ takes | meas _ _ takes | dly _ takes | outTrig _ takes | outLed _ takes | outHex _ takes =>
    simp [State.accepts_of_takesWord takes]
  | quietEnd hphase | triggerEnd hphase | rise hphase | fall hphase | delayEnd hphase => simp [hphase]

/-- TRIG is written where a measurement starts and at the ends of QUIET and TRIGGER (R128 to R130), and by OUT TRIG in
READY, of which nothing is said. -/
theorem trigFollowsPhase (h : SequencerTick s u) (hs : s.TrigFollowsPhase) : u.TrigFollowsPhase := by
  cases h with
  | wait | answer | reject | conv | outLed | outHex => exact hs
  | outTrig a takes =>
    obtain ⟨-, -, -, hready⟩ := takes
    simp [State.TrigFollowsPhase, hready]
  | meas | dly | quietEnd | triggerEnd | fall | delayEnd => simp [State.TrigFollowsPhase]
  | rise waitRise =>
    have hlow : s.trig = false := hs.2 (.inr (.inl waitRise))
    simp [State.TrigFollowsPhase, hlow]

/-- PULSE, DIST and OVF are written together or not at all (R125, R132). -/
theorem readingAgrees (h : SequencerTick s u) (hs : s.ReadingAgrees) : u.ReadingAgrees := by
  cases h with
  | conv f a => exact s.readingAgrees_finishReading f a
  | fall => exact s.readingAgrees_finishReading s.f s.sinceT0
  | _ => exact hs

/-- Only a rejected word gives an error response, and it sets CERR (R76, R206). -/
theorem errorAgrees (h : SequencerTick s u) (hs : s.ErrorAgrees) : u.ErrorAgrees := by
  intro herr
  cases h with
  | reject => exact ⟨responseWord_data true 0#32, rfl⟩
  | answer | conv | outTrig | outLed | outHex | fall | delayEnd =>
    exact absurd ((responseWord_err false _).symm.trans herr) Bool.false_ne_true
  | wait | meas | dly | quietEnd | triggerEnd | rise => exact hs herr

/-- NT is a whole number of seconds, as DLY leaves it (R31, R166). -/
theorem delayAgrees (h : SequencerTick s u) (hs : s.DelayAgrees) : u.DelayAgrees := by
  show u.nt.toNat % 50000000 = 0
  by_cases hkept : u.nt = s.nt
  · rw [hkept]
    exact hs
  · obtain ⟨a, -, hlength⟩ := h.nt_writer hkept
    omega

/-- Every action of the sequencer keeps the block's invariant. -/
theorem keeps_inv (h : SequencerTick s u) (hs : s.Inv) : u.Inv := by
  obtain ⟨-, htrig, hreading, herror, hdelay⟩ := hs
  exact ⟨h.busySilent, h.trigFollowsPhase htrig, h.readingAgrees hreading, h.errorAgrees herror,
    h.delayAgrees hdelay⟩

end SequencerTick

/-- Settles O33: reset sets the registers, any other tick is one action of the sequencer, and the rest of a tick
touches no register of the invariant. -/
theorem everyTickKeepsTheInvariant : Obligations.EveryTickKeepsTheInvariant := by
  intro s t hinv hstep
  cases hrst : s.lines.rst with
  | true =>
    obtain rfl : s.resetTick = t := Host.Outcome.next.inj ((step_reset hrst).symm.trans hstep)
    exact s.inv_resetRegisters
  | false =>
    obtain ⟨u, htick, rfl⟩ := sequencerTick_of_step hrst hstep
    exact htick.keeps_inv hinv

end Sys2Proof.Machine
end

section
/-!
PROOFS. The command port's discipline with the reference host: what the host presents is legal, and it waits exactly
while the block is busy or responds.
-/
namespace Sys2Proof.Machine

/-! ### The host's side -/

/-- The host presents no command with an argument R75 forbids (R191). -/
theorem hostCommand_wf (h : HostState) : (hostCommand h).wf = true := by
  have label (l : Label) : (Instr.lit (labelIndex l)).wf = true := by cases l <;> rfl
  unfold hostCommand
  split
  case h_1 => split <;> rfl
  case h_3 =>
    split
    · exact label .err
    · rfl
  case h_6 => exact label _
  case h_10 isLabel _ _ => cases isLabel <;> decide
  all_goals rfl

/-- The host's word is never one R205 rejects (R191). -/
theorem hostCommand_legal (h : HostState) : ¬ IllegalCommand (encode (hostCommand h)) := by
  simp [illegalCommand_encode_iff, hostCommand_wf]

/-- Once it has taken a visible response, the host waits exactly while the block is busy (R35, R175). -/
theorem takeResponse_waiting_iff (p : HostParams) {y : System} (hinv : y.Inv) :
    (y.takeResponse p).waiting = true ↔ y.block.phase ≠ .ready := by
  obtain ⟨hsilent, hwaits, -⟩ := hinv
  unfold System.takeResponse
  split
  case isTrue htaken =>
    obtain ⟨-, hvisible⟩ : y.host.waiting = true ∧ y.block.rspv = true := Bool.and_eq_true_iff.mp htaken
    have hready : y.block.phase = .ready := by
      by_contra hbusy
      simp [hsilent hbusy] at hvisible
    simp [hready]
  case isFalse hnone =>
    refine ⟨fun hwaiting => ?_, fun hbusy => hwaits.mpr (.inl hbusy)⟩
    have hhidden : ¬ y.block.rspv = true := fun hvisible => hnone (Bool.and_eq_true_iff.mpr ⟨hwaiting, hvisible⟩)
    exact (hwaits.mp hwaiting).resolve_right hhidden

/-- Where the block is not reset, the host waits after the tick if its command is accepted or it waited before. -/
theorem HostState.endTick_waiting {h : HostState} {s : State} (hrst : s.lines.rst = false) :
    (h.endTick s).waiting = true ↔ (s.accepts = true ∨ h.waiting = true) := by
  unfold HostState.endTick
  cases s.accepts with
  | true => simp
  | false => cases hwait : h.waiting <;> simp [hrst, hwait]

/-- A reset of the block ends the host's wait (R222). -/
theorem HostState.endTick_waiting_of_reset {h : HostState} {s : State} (hrst : s.lines.rst = true) :
    (h.endTick s).waiting = false := by
  have haccepts : s.accepts = false := by simp [State.accepts, State.cmdReady, hrst]
  unfold HostState.endTick
  cases hwait : h.waiting <;> simp [haccepts, hrst]

/-! ### The system -/

/-- A tick of the system is a tick of the block on the host's levels, and the host's end of it. -/
theorem step_of_system_step {p : HostParams} {y z : System} (h : y.step p = .next z) :
    step (y.block.driven (y.takeResponse p)) = .next z.block ∧
      z.host = (y.takeResponse p).endTick (y.block.driven (y.takeResponse p)) := by
  simp only [System.step] at h
  split at h <;> cases h
  exact ⟨‹_›, rfl⟩

/-- Settles O49: the block is busy or responds after a tick exactly where it took a command or was busy, and there the
host waits. -/
theorem systemKeepsThePortDiscipline : Obligations.SystemKeepsThePortDiscipline := by
  rintro p y ⟨block, host⟩ hinv hz
  obtain ⟨hstep, hhost⟩ := step_of_system_step hz
  dsimp only at hstep hhost
  subst hhost
  cases hrst : (y.block.driven (y.takeResponse p)).lines.rst with
  | true =>
    obtain rfl := Host.Outcome.next.inj ((step_reset hrst).symm.trans hstep)
    have hends := HostState.endTick_waiting_of_reset (h := y.takeResponse p) hrst
    exact ⟨fun _ => rfl, by simp [hends, State.resetTick], rfl⟩
  | false =>
    obtain ⟨u, htick, rfl⟩ := sequencerTick_of_step hrst hstep
    have hwaits := takeResponse_waiting_iff p hinv
    obtain ⟨-, -, hcerr⟩ := hinv
    refine ⟨htick.busySilent, ?_, ?_⟩
    · rw [HostState.endTick_waiting hrst, hwaits]
      exact htick.busy_or_responds_iff.symm
    · by_contra hset
      obtain ⟨-, hillegal⟩ := htick.cerr_writer fun hkept => hset (hkept.trans hcerr)
      exact hostCommand_legal (y.takeResponse p) hillegal

/-- Settles O50: the reset block is READY and silent, and the host at its start waits for nothing. -/
theorem systemStartMeetsThePortDiscipline : Obligations.SystemStartMeetsThePortDiscipline :=
  fun _ => ⟨fun _ => rfl, by simp [System.start, hostStart, State.reset], rfl⟩

end Sys2Proof.Machine
end

section
/-!
PROOFS. The ports as a memory: what a port reads after a write to it and after a write to another port (R51, R163 to
R165).
-/
namespace Sys2Proof.Machine

/-! ### What the ports read -/

/-- Zero-extension to a word keeps the number (R51). -/
theorem toNat_zext32 {n : Nat} (hn : n ≤ 32) (v : BitVec n) : (zext32 v).toNat = v.toNat :=
  BitVec.toNat_setWidth_of_le hn

/-- No port reads the response (R51). -/
@[simp] theorem portRead_respond (q : Port) (s : State) (err : Bool) (data : Word) :
    portRead q (s.respond err data) = portRead q s := by
  cases q <;> rfl

theorem toNat_portRead_writeTrig_same (s : State) (a : Word) :
    (portRead .trig (s.writeTrig a)).toNat = a.toNat % 2 :=
  calc (zext32 (BitVec.ofBool (trigBit a))).toNat
    _ = (trigBit a).toNat := by rw [toNat_zext32 (by decide), BitVec.toNat_ofBool]
    _ = a.toNat % 2 := by rw [trigBit, BitVec.getLsbD, Nat.toNat_testBit]; simp

theorem toNat_portRead_writeLed_same (s : State) (a : Word) :
    (portRead .led (s.writeLed a)).toNat = a.toNat % 1024 :=
  calc (zext32 (ledBits a)).toNat
    _ = (ledBits a).toNat := toNat_zext32 (by decide) _
    _ = a.toNat % 1024 := by simp [ledBits]

theorem portRead_writeHex_same (s : State) (a : Word) : portRead .hex (s.writeHex a) = a := rfl

theorem portRead_writeTrig_of_ne {q : Port} (hq : q ≠ .trig) (s : State) (a : Word) :
    portRead q (s.writeTrig a) = portRead q s := by
  cases q with
  | trig => exact absurd rfl hq
  | _ => rfl

theorem portRead_writeLed_of_ne {q : Port} (hq : q ≠ .led) (s : State) (a : Word) :
    portRead q (s.writeLed a) = portRead q s := by
  cases q with
  | led => exact absurd rfl hq
  | _ => rfl

theorem portRead_writeHex_of_ne {q : Port} (hq : q ≠ .hex) (s : State) (a : Word) :
    portRead q (s.writeHex a) = portRead q s := by
  cases q with
  | hex => exact absurd rfl hq
  | _ => rfl

/-! ### OUT, then a read -/

/-- Settles O19: OUT is a write of its one register and a response, and no port reads the response. -/
theorem portReadsBackWhatOutWrote : Obligations.PortReadsBackWhatOutWrote := by
  intro a s
  refine ⟨⟨_, rfl, ?_, fun q hq => ?_⟩, ⟨_, rfl, ?_, fun q hq => ?_⟩, ⟨_, rfl, ?_, fun q hq => ?_⟩⟩ <;>
    rw [portRead_respond]
  · exact toNat_portRead_writeTrig_same s a
  · exact portRead_writeTrig_of_ne hq s a
  · exact toNat_portRead_writeLed_same s a
  · exact portRead_writeLed_of_ne hq s a
  · exact portRead_writeHex_same s a
  · exact portRead_writeHex_of_ne hq s a

end Sys2Proof.Machine
end

section
/-!
PROOFS. The encoding: the decoder undoes the encoder, rejects each word for the one cause R205 gives it, and no composed
display word is the empty-slot sentinel.
-/
namespace Sys2Proof.Machine

/-! ### The fields of an encoded operation -/

theorem opcField_encode (i : Instr) : opcField (encode i) = i.opc := opcField_packCommand ..

theorem modField_encode (i : Instr) : modField (encode i) = i.modifier := modField_packCommand ..

theorem argField_encode (i : Instr) : argField (encode i) = i.argument := argField_packCommand ..

/-- A flags nibble under a reserved 0 gives its flags back (R73). -/
theorem withFlags_setWidth (f : Flags) (i : Flags → Instr) : withFlags (f.setWidth 4) i = .ok (i f) := by
  have reserved : ∀ f : Flags, ¬ (f.setWidth 4).getLsbD 3 = true := by decide
  have nibble : ∀ f : Flags, (f.setWidth 4).extractLsb' 0 3 = f := by decide
  rw [withFlags, if_neg (reserved f), nibble]

/-- Settles O1, operation by operation, from the three fields of the encoded word. -/
theorem decodeOfEncodeIsTheOperation : Obligations.DecodeOfEncodeIsTheOperation := by
  intro i
  rw [decode, opcField_encode, modField_encode, argField_encode]
  cases i with
  | cmp f _ | conv f _ | meas f _ => exact withFlags_setWidth f _
  | _ => rfl

/-- Settles O2: an operation that is decoded has the fields of its word. -/
theorem encodeOfDecodeIsTheWord : Obligations.EncodeOfDecodeIsTheWord :=
  fun _ _ => encode_of_decode

/-- Settles O4: ten closed words. -/
theorem sampleWordsDecode : Obligations.SampleWordsDecode := by
  unfold Obligations.SampleWordsDecode
  decide

/-! ### The cause of a rejection -/

theorem withZeroModifier_eq_error_iff {m : BitVec 4} {i : Instr} {e : CommandError} :
    withZeroModifier m i = .error e ↔ .reservedModifier = e ∧ m.toNat ≠ 0 := by
  refine ⟨fun h => ⟨?_, withZeroModifier_eq_error h⟩, ?_⟩
  · unfold withZeroModifier at h
    split at h <;> cases h
    rfl
  · rintro ⟨rfl, hm⟩
    exact if_neg fun hzero => hm (by simp [hzero])

theorem withFlags_eq_error_iff {m : BitVec 4} {i : Flags → Instr} {e : CommandError} :
    withFlags m i = .error e ↔ .reservedModifier = e ∧ 8 ≤ m.toNat := by
  refine ⟨fun h => ⟨?_, withFlags_eq_error h⟩, ?_⟩
  · unfold withFlags at h
    split at h <;> cases h
    rfl
  · have reserved : ∀ m : BitVec 4, 8 ≤ m.toNat → m.getLsbD 3 = true := by decide
    rintro ⟨rfl, hm⟩
    exact if_pos (reserved m hm)

theorem decodeIn_eq_error_iff {m : BitVec 4} {a : Word} {e : CommandError} :
    decodeIn m a = .error e ↔ .reservedPort = e ∧ 10 ≤ m.toNat := by
  refine ⟨fun h => ⟨?_, decodeIn_eq_error h⟩, ?_⟩
  · unfold decodeIn at h
    split at h <;> cases h
    rfl
  · rintro ⟨rfl, hm⟩
    unfold decodeIn
    split
    case h_11 => rfl
    all_goals omega

theorem decodeOut_eq_error_iff {m : BitVec 4} {a : Word} {e : CommandError} :
    decodeOut m a = .error e ↔ .badOutPort = e ∧ m.toNat ≠ 4 ∧ m.toNat ≠ 5 ∧ m.toNat ≠ 6 := by
  refine ⟨fun h => ⟨?_, decodeOut_eq_error h⟩, ?_⟩
  · unfold decodeOut at h
    split at h <;> cases h
    rfl
  · rintro ⟨rfl, h4, h5, h6⟩
    unfold decodeOut
    split
    case h_4 => rfl
    all_goals contradiction

/-- The operation codes and modifiers the decoder rejects for a cause (R74, R77, R78): none for the causes of R205 (3),
which the meanings test. -/
def RejectedFor (opc m : Nat) : CommandError → Prop
  | .reservedOpcode => opc = 0 ∨ 9 ≤ opc
  | .reservedModifier => ((opc = 1 ∨ opc = 3 ∨ opc = 6) ∧ m ≠ 0) ∨ ((opc = 2 ∨ opc = 4 ∨ opc = 5) ∧ 8 ≤ m)
  | .reservedPort => opc = 7 ∧ 10 ≤ m
  | .badOutPort => opc = 8 ∧ m ≠ 4 ∧ m ≠ 5 ∧ m ≠ 6
  | .badLiteralIndex => False
  | .delayTooLong => False

/-- The decoder rejects a word for a cause exactly on the cause's own fields (R205 (1) and (2)). -/
theorem decode_eq_error_iff {w : CmdWord} {e : CommandError} :
    decode w = .error e ↔ RejectedFor (opcField w).toNat (modField w).toNat e := by
  unfold decode
  split
  case h_1 hopc | h_3 hopc | h_6 hopc =>
    rw [hopc, withZeroModifier_eq_error_iff]
    cases e <;> simp [RejectedFor]
  case h_2 hopc | h_4 hopc | h_5 hopc =>
    rw [hopc, withFlags_eq_error_iff]
    cases e <;> simp [RejectedFor]
  case h_7 hopc =>
    rw [hopc, decodeIn_eq_error_iff]
    cases e <;> simp [RejectedFor]
  case h_8 hopc =>
    rw [hopc, decodeOut_eq_error_iff]
    cases e <;> simp [RejectedFor]
  case h_9 =>
    simp only [imp_false] at *
    cases e <;> simp [RejectedFor] <;> omega

/-- Settles O3, cause by cause. -/
theorem decoderRejectsByCause : Obligations.DecoderRejectsByCause :=
  fun _ => ⟨decode_eq_error_iff, decode_eq_error_iff, decode_eq_error_iff, decode_eq_error_iff,
    decode_eq_error_iff.mp, decode_eq_error_iff.mp⟩

/-! ### Composed words and the sentinel -/

/-- Two bits of the byte are clear. -/
def TwoBitsClear (b : Byte) : Prop := ∃ i j, i < j ∧ j < 8 ∧ b.getLsbD i = false ∧ b.getLsbD j = false

theorem digitPattern_mem (d : Nat) : digitPattern rfb d ∈ rfb.digits := by
  rw [digitPattern, List.getD_eq_getElem?_getD]
  by_cases hd : d < rfb.digits.length
  · simp [hd]
  · rw [List.getElem?_eq_none (by omega)]
    decide

/-- Every digit lights two segments. -/
theorem twoBitsClear_digitPattern (d : Nat) : TwoBitsClear (digitPattern rfb d) := by
  have table : ∀ b ∈ rfb.digits, ∃ i j : Fin 8, i < j ∧ b.getLsbD i = false ∧ b.getLsbD j = false := by decide
  obtain ⟨i, j, hij, hi, hj⟩ := table _ (digitPattern_mem d)
  exact ⟨i, j, hij, j.isLt, hi, hj⟩

/-- The point only lights one segment more (R87). -/
theorem twoBitsClear_withPoint_digitPattern (d : Nat) : TwoBitsClear (withPoint (digitPattern rfb d)) := by
  have table : ∀ b ∈ rfb.digits, ∃ i j : Fin 8, i < j ∧ (withPoint b).getLsbD i = false ∧
      (withPoint b).getLsbD j = false := by decide
  obtain ⟨i, j, hij, hi, hj⟩ := table _ (digitPattern_mem d)
  exact ⟨i, j, hij, j.isLt, hi, hj⟩

/-- Four bytes as a display word, the thousands digit's first (R86). -/
def packBytes (b3 b2 b1 b0 : Byte) : Word :=
  (zext32 b3 <<< 24) ||| (zext32 b2 <<< 16) ||| (zext32 b1 <<< 8) ||| zext32 b0

/-- R103: the composed word is a pack of digit patterns, one of them with the point. -/
theorem compose_eq_packBytes (v : Nat) (dp : Bool) :
    compose rfb v dp = packBytes
      (if dp then digitPattern rfb (v / 1000 % 10) else withPoint (digitPattern rfb (v / 1000 % 10)))
      (if dp then withPoint (digitPattern rfb (v / 100 % 10)) else digitPattern rfb (v / 100 % 10))
      (digitPattern rfb (v / 10 % 10)) (digitPattern rfb (v % 10)) := by
  simp [compose, packBytes, digitAt]

/-- The bytes of a packed word are the packed ones (R86). -/
theorem digitByte_packBytes (b3 b2 b1 b0 : Byte) :
    digitByte (packBytes b3 b2 b1 b0) 0 = b0 ∧ digitByte (packBytes b3 b2 b1 b0) 1 = b1 ∧
      digitByte (packBytes b3 b2 b1 b0) 2 = b2 ∧ digitByte (packBytes b3 b2 b1 b0) 3 = b3 := by
  have hpack : (packBytes b3 b2 b1 b0).toNat = b3.toNat * 2 ^ 24 + b2.toNat * 2 ^ 16 + b1.toNat * 2 ^ 8 + b0.toNat :=
    toNat_packBytes b3 b2 b1 b0
  have hbyte (n : Nat) : (digitByte (packBytes b3 b2 b1 b0) n).toNat =
      (packBytes b3 b2 b1 b0).toNat / 2 ^ (8 * n) % 2 ^ 8 := by
    rw [digitByte, BitVec.extractLsb'_toNat, Nat.shiftRight_eq_div_pow]
  refine ⟨?_, ?_, ?_, ?_⟩ <;> apply BitVec.eq_of_toNat_eq <;> rw [hbyte, hpack] <;> omega

theorem twoBitsClear_digitByte_packBytes {b3 b2 b1 b0 : Byte} (h3 : TwoBitsClear b3) (h2 : TwoBitsClear b2)
    (h1 : TwoBitsClear b1) (h0 : TwoBitsClear b0) {n : Nat} (hn : n < 4) :
    TwoBitsClear (digitByte (packBytes b3 b2 b1 b0) n) := by
  obtain ⟨e0, e1, e2, e3⟩ := digitByte_packBytes b3 b2 b1 b0
  interval_cases n
  · rwa [e0]
  · rwa [e1]
  · rwa [e2]
  · rwa [e3]

/-- Each byte of a composed word is a digit's pattern, with the point or without it (R94). -/
theorem twoBitsClear_digitByte_compose (v : Nat) (dp : Bool) {n : Nat} (hn : n < 4) :
    TwoBitsClear (digitByte (compose rfb v dp) n) := by
  rw [compose_eq_packBytes]
  refine twoBitsClear_digitByte_packBytes ?_ ?_ (twoBitsClear_digitPattern _) (twoBitsClear_digitPattern _) hn
  · cases dp with
    | false => exact twoBitsClear_withPoint_digitPattern _
    | true => exact twoBitsClear_digitPattern _
  · cases dp with
    | false => exact twoBitsClear_digitPattern _
    | true => exact twoBitsClear_withPoint_digitPattern _

/-- The sentinel has no clear bit (R91). -/
theorem not_twoBitsClear_digitByte_sentinel : ¬ TwoBitsClear (digitByte 0xFFFFFFFF#32 0) := by
  rintro ⟨i, j, hij, hj, hi, -⟩
  have ones : digitByte 0xFFFFFFFF#32 0 = BitVec.allOnes 8 := by decide
  rw [ones, BitVec.getLsbD_allOnes] at hi
  simp at hi
  omega

/-- Settles O37: every byte of a composed word has two clear bits, and the sentinel's lowest byte has none. -/
theorem composedWordIsNeverTheSentinel : Obligations.ComposedWordIsNeverTheSentinel := by
  intro v dp
  refine ⟨fun hones => ?_, fun n hn => twoBitsClear_digitByte_compose v dp hn⟩
  have hclear := twoBitsClear_digitByte_compose v dp (n := 0) (by decide)
  rw [hones] at hclear
  exact not_twoBitsClear_digitByte_sentinel hclear

end Sys2Proof.Machine
end

section
/-!
PROOFS. The encoder and the composer: what ENC, CMP and LIT answer, alone and from their words, and the laws that read
a composed word byte by byte.
-/
namespace Sys2Proof.Machine

/-! ### What ENC, CMP and LIT answer -/

/-- ENC is the table of R100 (R101). -/
theorem exec_enc (a : Word) (s : State) : exec (.enc a) s = .next (s.answered (patternOf a.toNat)) := by
  show Host.Outcome.next (s.respond false (zext32 (digitPattern rfb a.toNat))) = _
  rw [answered_eq, toNat_zext32_byte, toNat_digitPattern]

/-- CMP is the composer with the flag DP (R104). -/
theorem exec_cmp (f : Flags) (a : Word) (s : State) :
    exec (.cmp f a) s = .next (s.answered (composedNumber a.toNat (f.getLsbD 2))) := by
  show Host.Outcome.next (s.respond false (compose rfb a.toNat (f.getLsbD 2))) = _
  rw [answered_eq, toNat_compose]

/-- LIT is the literal table up to index 10, and a command error above it (R107). -/
theorem exec_lit (a : Word) (s : State) :
    exec (.lit a) s = .next (if a.toNat ≤ 10 then s.answered (literalNumber a.toNat) else s.rejected) := by
  show execLit a s = _
  simp only [execLit, literalIndexLegal_iff]
  split
  case isTrue hlegal => rw [answered_eq, toNat_literalWord hlegal]
  case isFalse => rfl

/-! ### Words with a modifier -/

/-- A taken word that the decoder rejects (R206). -/
theorem step_of_takesWord_error {s : State} {w : CmdWord} {e : CommandError} (h : s.takesWord w)
    (hd : decode w = .error e) : step s = .next s.rejected.advance := by
  have haccepts := State.accepts_of_takesWord h
  obtain ⟨-, -, rfl, -⟩ := h
  exact step_of_reject haccepts hd

/-- A taken word of an operation whose modifier must be 0 (R78). -/
theorem step_of_withZeroModifier {s t : State} {w : CmdWord} {i : Instr} (h : s.takesWord w)
    (hd : decode w = withZeroModifier (modField w) i) (hexec : exec i s = .next t) :
    step s = .next (if modField w = 0#4 then t else s.rejected).advance := by
  unfold withZeroModifier at hd
  split at hd
  case isTrue hzero => rw [if_pos hzero, step_of_takesWord h hd, hexec]; rfl
  case isFalse hzero => rw [if_neg hzero, step_of_takesWord_error h hd]

/-- A taken word of an operation with a flags nibble: bit 35 is reserved, the three bits below it are the flags
(R73, R78). -/
theorem step_of_withFlags {s : State} {w : CmdWord} {i : Flags → Instr} {t : Flags → State} (h : s.takesWord w)
    (hd : decode w = withFlags (modField w) i) (hexec : ∀ f, exec (i f) s = .next (t f)) :
    step s = .next (if w.getLsbD 35 then s.rejected else t (w.extractLsb' 32 3)).advance := by
  have hreserved : (modField w).getLsbD 3 = w.getLsbD 35 := by simp [modField]
  have hflags : (modField w).extractLsb' 0 3 = w.extractLsb' 32 3 := by
    apply BitVec.eq_of_getLsbD_eq
    intro j hj
    simp [modField, hj, show j < 4 by omega]
  rw [withFlags, hreserved, hflags] at hd
  split at hd
  case isTrue hset => rw [if_pos hset, step_of_takesWord_error h hd]
  case isFalse hset => rw [if_neg hset, step_of_takesWord h hd, hexec]; rfl

/-- Settles O11. -/
theorem encRespondsWithThePattern : Obligations.EncRespondsWithThePattern := by
  refine ⟨exec_enc, fun s w htakes hopc => ?_⟩
  have hdecode : decode w = withZeroModifier (modField w) (.enc (argField w)) := by rw [decode, opcField, hopc]; rfl
  exact step_of_withZeroModifier htakes hdecode (exec_enc _ s)

/-- Settles O12: DP, bit 2 of the flags, is bit 34 of the word. -/
theorem cmpRespondsWithTheComposedWord : Obligations.CmpRespondsWithTheComposedWord := by
  refine ⟨exec_cmp, fun s w htakes hopc => ?_⟩
  have hdecode : decode w = withFlags (modField w) (fun f => .cmp f (argField w)) := by rw [decode, opcField, hopc]; rfl
  have hdp : (w.extractLsb' 32 3).getLsbD 2 = w.getLsbD 34 := by simp
  rw [step_of_withFlags htakes hdecode (fun f => exec_cmp f _ s), hdp]
  rfl

/-- Settles O13: the modifier and the index are tested one after the other, with the same effect. -/
theorem litRespondsWithTheLiteralWord : Obligations.LitRespondsWithTheLiteralWord := by
  refine ⟨fun a s hle => ?_, fun a s hlt => ?_, fun s w htakes hopc => ?_⟩
  · rw [exec_lit, if_pos hle]
  · rw [exec_lit, if_neg (by omega)]
  · have hdecode : decode w = withZeroModifier (modField w) (.lit (argField w)) := by rw [decode, opcField, hopc]; rfl
    rw [step_of_withZeroModifier htakes hdecode (exec_lit _ s), ← ite_and]
    rfl

/-! ### A display word by its bytes -/

/-- A bit of a display word is a bit of one of its bytes (R86). -/
theorem getLsbD_eq_digitByte (x : Word) (i : Nat) : x.getLsbD i = (digitByte x (i / 8)).getLsbD (i % 8) := by
  simp [digitByte, Nat.mod_lt, Nat.div_add_mod]

/-- Display words with the same four bytes are the same (R86). -/
theorem eq_of_digitByte_eq {x y : Word} (h0 : digitByte x 0 = digitByte y 0) (h1 : digitByte x 1 = digitByte y 1)
    (h2 : digitByte x 2 = digitByte y 2) (h3 : digitByte x 3 = digitByte y 3) : x = y := by
  have hbytes : ∀ n, n < 4 → digitByte x n = digitByte y n := by
    intro n hn
    interval_cases n <;> assumption
  apply BitVec.eq_of_getLsbD_eq
  intro i hi
  rw [getLsbD_eq_digitByte, getLsbD_eq_digitByte y, hbytes _ (by omega)]

theorem digitByte_xor (x y : Word) (n : Nat) : digitByte (x ^^^ y) n = digitByte x n ^^^ digitByte y n :=
  BitVec.extractLsb'_xor

/-- The bytes of a composed word are the digits' patterns, one of them with the point (R103). -/
theorem digitByte_compose (v : Nat) (dp : Bool) :
    digitByte (compose rfb v dp) 0 = digitPattern rfb (v % 10) ∧
    digitByte (compose rfb v dp) 1 = digitPattern rfb (v / 10 % 10) ∧
    digitByte (compose rfb v dp) 2 =
      (if dp then withPoint (digitPattern rfb (v / 100 % 10)) else digitPattern rfb (v / 100 % 10)) ∧
    digitByte (compose rfb v dp) 3 =
      (if dp then digitPattern rfb (v / 1000 % 10) else withPoint (digitPattern rfb (v / 1000 % 10))) := by
  rw [compose_eq_packBytes]
  exact digitByte_packBytes ..

/-! ### Digit patterns and the point -/

/-- A digit's pattern leaves the point dark (R85, R87). -/
theorem getLsbD_seven_digitPattern (d : Nat) : (digitPattern rfb d).getLsbD 7 = true := by
  have table : ∀ b ∈ rfb.digits, b.getLsbD 7 = true := by decide
  exact table _ (digitPattern_mem d)

/-- The point lights (R87). -/
theorem getLsbD_seven_withPoint_digitPattern (d : Nat) : (withPoint (digitPattern rfb d)).getLsbD 7 = false := by
  have table : ∀ b ∈ rfb.digits, (withPoint b).getLsbD 7 = false := by decide
  exact table _ (digitPattern_mem d)

/-- The point changes no other segment (R87). -/
theorem digitPattern_xor_withPoint (d : Nat) : digitPattern rfb d ^^^ withPoint (digitPattern rfb d) = 0x80#8 := by
  have table : ∀ b ∈ rfb.digits, b ^^^ withPoint b = 0x80#8 := by decide
  exact table _ (digitPattern_mem d)

/-- No two digits have one pattern (R85). -/
theorem digitPattern_inj {d e : Nat} (hd : d < 10) (he : e < 10) (h : digitPattern rfb d = digitPattern rfb e) :
    d = e := by
  have table : ∀ d e : Fin 10, digitPattern rfb d = digitPattern rfb e → d.val = e.val := by decide
  exact table ⟨d, hd⟩ ⟨e, he⟩ h

theorem withPoint_inj {b c : Byte} : withPoint b = withPoint c ↔ b = c := sub_left_inj

/-! ### The laws of the composer -/

/-- Exactly one point is lit: the thousands digit's without DP, the hundreds digit's with it (R105). -/
theorem compose_points (v : Nat) (dp : Bool) :
    (compose rfb v dp).getLsbD 31 = dp ∧ (compose rfb v dp).getLsbD 23 = !dp ∧
      (compose rfb v dp).getLsbD 15 = true ∧ (compose rfb v dp).getLsbD 7 = true := by
  obtain ⟨h0, h1, h2, h3⟩ := digitByte_compose v dp
  simp only [getLsbD_eq_digitByte _ 31, getLsbD_eq_digitByte _ 23, getLsbD_eq_digitByte _ 15,
    getLsbD_eq_digitByte _ 7, Nat.reduceDiv, Nat.reduceMod, h0, h1, h2, h3]
  refine ⟨?_, ?_, getLsbD_seven_digitPattern _, getLsbD_seven_digitPattern _⟩
  · cases dp with
    | false => exact getLsbD_seven_withPoint_digitPattern _
    | true => exact getLsbD_seven_digitPattern _
  · cases dp with
    | false => exact getLsbD_seven_digitPattern _
    | true => exact getLsbD_seven_withPoint_digitPattern _

/-- The two words of a value differ in the points of the thousands and the hundreds digit (R105). -/
theorem compose_xor (v : Nat) : compose rfb v false ^^^ compose rfb v true = 0x80800000#32 := by
  obtain ⟨f0, f1, f2, f3⟩ := digitByte_compose v false
  obtain ⟨t0, t1, t2, t3⟩ := digitByte_compose v true
  apply eq_of_digitByte_eq <;> rw [digitByte_xor]
  · rw [f0, t0, BitVec.xor_self]
    rfl
  · rw [f1, t1, BitVec.xor_self]
    rfl
  · rw [f2, t2]
    exact digitPattern_xor_withPoint _
  · rw [f3, t3, BitVec.xor_comm]
    exact digitPattern_xor_withPoint _

/-- A composed word shows the four low decimal digits of its value (R105). -/
theorem mod_eq_of_compose_eq {v u : Nat} {dp : Bool} (h : compose rfb v dp = compose rfb u dp) :
    v % 10000 = u % 10000 := by
  obtain ⟨v0, v1, v2, v3⟩ := digitByte_compose v dp
  obtain ⟨u0, u1, u2, u3⟩ := digitByte_compose u dp
  rw [h] at v0 v1 v2 v3
  have ones : v % 10 = u % 10 := digitPattern_inj (by omega) (by omega) (v0.symm.trans u0)
  have tens : v / 10 % 10 = u / 10 % 10 := digitPattern_inj (by omega) (by omega) (v1.symm.trans u1)
  have hundreds : v / 100 % 10 = u / 100 % 10 := by
    apply digitPattern_inj (by omega) (by omega)
    have := v2.symm.trans u2
    cases dp with
    | false => exact this
    | true => exact withPoint_inj.mp this
  have thousands : v / 1000 % 10 = u / 1000 % 10 := by
    apply digitPattern_inj (by omega) (by omega)
    have := v3.symm.trans u3
    cases dp with
    | false => exact withPoint_inj.mp this
    | true => exact this
  omega

/-- Settles O35, law by law. -/
theorem composerLaws : Obligations.ComposerLaws := by
  refine ⟨fun v => ?_, fun _ _ => digitPattern_inj, fun _ _ _ => mod_eq_of_compose_eq⟩
  obtain ⟨-, -, f2, f3⟩ := digitByte_compose v false
  obtain ⟨-, -, t2, t3⟩ := digitByte_compose v true
  refine ⟨f3, f2, t3, t2, fun dp => ?_, compose_xor v⟩
  obtain ⟨h0, h1, -, -⟩ := digitByte_compose v dp
  exact ⟨h1, h0, compose_points v dp⟩

/-- Settles O36: a digit of `v` up to the thousands is a digit of `v` modulo 10000. -/
theorem composerShowsTheFourLowDigits : Obligations.ComposerShowsTheFourLowDigits := by
  intro v dp
  have thousands : v % 10000 / 1000 % 10 = v / 1000 % 10 := by omega
  have hundreds : v % 10000 / 100 % 10 = v / 100 % 10 := by omega
  have tens : v % 10000 / 10 % 10 = v / 10 % 10 := by omega
  have ones : v % 10000 % 10 = v % 10 := by omega
  rw [compose_eq_packBytes, compose_eq_packBytes, thousands, hundreds, tens, ones]

end Sys2Proof.Machine
end

section
/-!
PROOFS. The distance converter: its laws, the least overflowing pulses, and the bands as whole thousands of the reading
(R122, R123, R126).
-/
namespace Sys2Proof.Machine

/-! ### The laws of scaling -/

theorem denominatorOf_pos (f : Flags) : 0 < denominatorOf f :=
  Nat.lt_of_lt_of_le (by decide) (denominatorOf_ge f)

/-- LE is not read by the divisor (R120). -/
theorem denominatorOf_or_le (f : Flags) : denominatorOf (f ||| 2#3) = denominatorOf f := by
  revert f
  decide

/-- Each setting of the flags divides one numerator by its own power of ten (R120, R121). -/
theorem scale_eq_div (p : Nat) :
    scale rfb 0#3 p = p * 34029 / 1000000 ∧ scale rfb 4#3 p = p * 34029 / 10000000 ∧
      scale rfb 1#3 p = p * 34029 / 100000000 ∧ scale rfb 5#3 p = p * 34029 / 1000000000 :=
  ⟨rfl, rfl, rfl, rfl⟩

theorem scale_mono (f : Flags) {p q : Nat} (h : p ≤ q) : scale rfb f p ≤ scale rfb f q :=
  Nat.div_le_div_right (Nat.mul_le_mul_right _ h)

/-- Settles O40: the divisors are powers of ten, so that one distance is another without its last digits. -/
theorem scalingLaws : Obligations.ScalingLaws := by
  refine ⟨fun p => ?_, fun f p q => scale_mono f, fun f => by simp [scale, readingNum], fun f p => ?_⟩
  · obtain ⟨h0, h4, h1, h5⟩ := scale_eq_div p
    omega
  · rw [scale_eq, scale_eq, ovfOf_eq, ovfOf_eq, distanceOf, distanceOf, denominatorOf_or_le]
    exact ⟨rfl, rfl⟩

/-! ### The overflow threshold -/

/-- The untruncated comparison with the threshold is that of the truncated distance (R122). -/
theorem ovfOf_eq_scale (f : Flags) (p : Nat) : ovfOf rfb f p = decide (10000 ≤ scale rfb f p) := by
  rw [ovfOf_eq, scale_eq, distanceOf]
  simp only [Nat.le_div_iff_mul_le (denominatorOf_pos f)]

/-- Settles O38: the least overflowing pulse is the threshold over 34029, rounded up, for each of the four divisors. -/
theorem overflowThresholds : Obligations.OverflowThresholds := by
  intro f p
  have hproduct : ovfOf rfb f p = true ↔ 10000 * 1000000 * divisor rfb f ≤ p * 34029 := by
    rw [ovfOf_eq, decide_eq_true_iff, ← readingDen_eq, Nat.mul_assoc]
    rfl
  refine ⟨by rw [ovfOf_eq_scale, decide_eq_true_iff], hproduct, hproduct.trans ?_⟩
  have hdivisor : divisor rfb f = (if flagDp f then 10 else 1) * (if flagUnit f then 100 else 1) := rfl
  rw [hdivisor]
  split <;> split <;> omega

/-! ### The bands -/

/-- The numerator's coefficient has no prime in common with a power of ten (R121). -/
theorem coprime_coefficient_denominatorOf (f : Flags) : Nat.Coprime 34029 (1000 * denominatorOf f) := by
  revert f
  decide

/-- No reading is a whole number of thousands, from one thousand up to 34028 of them: the coefficient would divide that
number. This is why it does not matter that R123 closes its bands on the right. -/
theorem reading_ne_thousands (f : Flags) (p : Nat) {k : Nat} (hpos : 0 < k) (hlt : k < 34029) :
    p * 34029 ≠ k * (1000 * denominatorOf f) := by
  intro heq
  have hdvd : 34029 ∣ k * (1000 * denominatorOf f) := ⟨p, by rw [← heq, Nat.mul_comm]⟩
  exact absurd (Nat.le_of_dvd hpos ((coprime_coefficient_denominatorOf f).dvd_of_dvd_mul_right hdvd)) (by omega)

/-- A reading is below `k` thousands exactly when its whole thousands are fewer (R139). -/
theorem readingBelow_thousands (f : Flags) (p k : Nat) :
    readingBelow rfb f p (k * rfb.bandUnit) = decide (scale rfb f p / 1000 < k) := by
  have hpos : 0 < denominatorOf f * 1000 := Nat.mul_pos (denominatorOf_pos f) (by decide)
  have hproduct : k * 1000 * denominatorOf f = k * (denominatorOf f * 1000) := by ring
  show decide (p * 34029 < k * 1000 * denominatorOf f) = decide (p * 34029 / denominatorOf f / 1000 < k)
  simp only [Nat.div_div_eq_div_mul, Nat.div_lt_iff_lt_mul hpos, hproduct]

/-- So is a reading of at most `k` thousands, since none is `k` thousands. -/
theorem readingAtMost_thousands (f : Flags) (p : Nat) {k : Nat} (hpos : 0 < k) (hlt : k < 34029) :
    readingAtMost rfb f p (k * rfb.bandUnit) = decide (scale rfb f p / 1000 < k) := by
  have hne : p * 34029 ≠ k * 1000 * denominatorOf f := by
    rw [Nat.mul_assoc]
    exact reading_ne_thousands f p hpos hlt
  rw [← readingBelow_thousands]
  show decide (p * 34029 ≤ k * 1000 * denominatorOf f) = decide (p * 34029 < k * 1000 * denominatorOf f)
  simp only [Nat.lt_iff_le_and_ne, hne, ne_eq, not_false_eq_true, and_true]

/-- The flag OVF is set from ten whole thousands on (R139). -/
theorem ovfOf_thousands (f : Flags) (p : Nat) : ovfOf rfb f p = decide (10 ≤ scale rfb f p / 1000) := by
  rw [ovfOf_eq_scale]
  simp only [Nat.le_div_iff_mul_le (show 0 < 1000 by decide)]

/-- Settles O39: each comparison of the chain asks whether the whole thousands are fewer than its bound, so the chain
counts them up to nine. -/
theorem bandIsTheThousandsOfTheReading : Obligations.BandIsTheThousandsOfTheReading := by
  intro f p _
  rw [band, readingBelow_thousands, ovfOf_thousands]
  simp only [readingAtMost_thousands, Nat.reduceLT, decide_eq_true_eq]
  generalize scale rfb f p / 1000 = thousands
  by_cases hovf : 10 ≤ thousands
  · simp [hovf, show ∀ k, k ≤ 10 → ¬ thousands < k by omega]
  · interval_cases thousands <;> rfl

end Sys2Proof.Machine
end

section
/-!
PROOFS. The range sensor driver, operation by operation and phase by phase: CONV, the acceptance of MEAS, and one tick
of each phase (R125, R128 to R132, R167).
-/
namespace Sys2Proof.Machine

/-! ### CONV and MEAS -/

/-- CONV is a finished reading of its argument (R125). -/
theorem exec_conv (f : Flags) (a : Word) (s : State) : exec (.conv f a) s = .next (s.finishReading f a) := rfl

/-- Settles O14: CONV is the common end of a reading, on its argument. -/
theorem convConvertsThePulse : Obligations.ConvConvertsThePulse := by
  refine ⟨fun f a s => by rw [exec_conv, finishReading_eq], fun s w htakes hopc => ?_⟩
  have hdecode : decode w = withFlags (modField w) (fun f => .conv f (argField w)) := by
    rw [decode, opcField, hopc]
    rfl
  rw [step_of_withFlags htakes hdecode (fun f => exec_conv f _ s), exec_conv]
  split <;> rfl

/-- What MEAS leaves in the tick of its acceptance (R128). -/
theorem exec_meas (f : Flags) (x : Word) (s : State) :
    exec (.meas f x) s = .next { s with f := f, trig := false, t0 := s.tick, phase := .quiet, rspv := false } := rfl

/-- Settles O15. -/
theorem measStartsTheProtocol : Obligations.MeasStartsTheProtocol := by
  refine ⟨exec_meas, fun s w htakes hopc => ?_⟩
  have hdecode : decode w = withFlags (modField w) (fun f => .meas f (argField w)) := by
    rw [decode, opcField, hopc]
    rfl
  exact step_of_withFlags htakes hdecode (fun f => exec_meas f _ s)

/-! ### One tick of each phase -/

/-- A busy block has a tick of its phase (R28, R136). -/
theorem step_of_busy {s : State} (hrst : s.lines.rst = false) (hbusy : s.phase ≠ .ready) :
    step s = .next s.phaseTick.advance :=
  step_of_phase hrst (State.accepts_of_busy hbusy)

theorem State.phaseTick_of_ready {s : State} (h : s.phase = .ready) : s.phaseTick = s.noResponse := by
  rw [State.phaseTick, h]

theorem State.phaseTick_of_quiet {s : State} (h : s.phase = .quiet) : s.phaseTick = s.quietTick := by
  rw [State.phaseTick, h]

theorem State.phaseTick_of_trigger {s : State} (h : s.phase = .trigger) : s.phaseTick = s.triggerTick := by
  rw [State.phaseTick, h]

theorem State.phaseTick_of_waitRise {s : State} (h : s.phase = .waitRise) : s.phaseTick = s.waitRiseTick := by
  rw [State.phaseTick, h]

theorem State.phaseTick_of_measure {s : State} (h : s.phase = .measure) : s.phaseTick = s.measureTick := by
  rw [State.phaseTick, h]

theorem State.phaseTick_of_delay {s : State} (h : s.phase = .delay) : s.phaseTick = s.delayTick := by
  rw [State.phaseTick, h]

/-- Settles O23, phase by phase. -/
theorem phaseTicksFollowTheirRules : Obligations.PhaseTicksFollowTheirRules := by
  intro s hrst
  refine ⟨fun h => ?_, fun h => ?_, fun h => ?_, fun h => ?_, fun h => ?_⟩ <;>
    rw [step_of_busy hrst (by simp [h])]
  · rw [State.phaseTick_of_quiet h]
    rfl
  · rw [State.phaseTick_of_trigger h]
    rfl
  · rw [State.phaseTick_of_waitRise h]
    rfl
  · rw [State.phaseTick_of_measure h, State.measureTick, finishReading_eq]
    rfl
  · rw [State.phaseTick_of_delay h, State.delayTick, answered_eq]
    rfl

end Sys2Proof.Machine
end

section
/-!
PROOFS. The lines that a tick does not read: no phase reads the buttons, the switches or the command port, only
WAIT_RISE and MEASURE read ECHO, and of the operations only IN reads a line (R136).
-/
namespace Sys2Proof.Machine

/-- The state with other levels of the input lines in this tick. -/
def State.withLines (s : State) (l : Lines) : State := { s with lines := l }

/-- A tick's end replaces the levels (R13). -/
theorem State.advance_withLines (s : State) (l : Lines) : (s.withLines l).advance = s.advance := rfl

/-- So does a tick of reset (R220). -/
theorem State.resetTick_withLines (s : State) (l : Lines) : (s.withLines l).resetTick = s.resetTick := rfl

/-- A tick of a phase reads no line but ECHO, in WAIT_RISE and MEASURE (R129 to R132, R167). -/
theorem State.phaseTick_withLines {s : State} {l : Lines}
    (hecho : s.phase = .waitRise ∨ s.phase = .measure → l.echo = s.lines.echo) :
    (s.withLines l).phaseTick = s.phaseTick.withLines l := by
  cases h : s.phase with
  | ready =>
    rw [State.phaseTick_of_ready h, State.phaseTick_of_ready (s := s.withLines l) h]
    rfl
  | quiet =>
    rw [State.phaseTick_of_quiet h, State.phaseTick_of_quiet (s := s.withLines l) h, State.quietTick,
      State.quietTick, apply_ite (fun t => State.withLines t l)]
    rfl
  | trigger =>
    rw [State.phaseTick_of_trigger h, State.phaseTick_of_trigger (s := s.withLines l) h, State.triggerTick,
      State.triggerTick, apply_ite (fun t => State.withLines t l)]
    rfl
  | delay =>
    rw [State.phaseTick_of_delay h, State.phaseTick_of_delay (s := s.withLines l) h, State.delayTick,
      State.delayTick, apply_ite (fun t => State.withLines t l)]
    rfl
  | waitRise =>
    have hsame : (s.withLines l).lines.echo = s.lines.echo := hecho (.inl h)
    rw [State.phaseTick_of_waitRise h, State.phaseTick_of_waitRise (s := s.withLines l) h, State.waitRiseTick,
      State.waitRiseTick, hsame, apply_ite (fun t => State.withLines t l)]
    rfl
  | measure =>
    have hsame : (s.withLines l).lines.echo = s.lines.echo := hecho (.inr h)
    rw [State.phaseTick_of_measure h, State.phaseTick_of_measure (s := s.withLines l) h, State.measureTick,
      State.measureTick, hsame, apply_ite (fun t => State.withLines t l)]
    rfl

/-- An operation that reads no line: all but IN of BTN, SW and ECHO (R152 to R154). -/
def ReadsNoLine (i : Instr) : Prop := ∀ x, i ≠ .inBtn x ∧ i ≠ .inSw x ∧ i ≠ .inEcho x

/-- Such an operation does the same on other levels. -/
theorem closeTick_exec_withLines {i : Instr} (h : ReadsNoLine i) (s : State) (l : Lines) :
    closeTick (exec i (s.withLines l)) = closeTick (exec i s) := by
  cases i with
  | inBtn x =>
    obtain ⟨hbtn, -, -⟩ := h x
    exact absurd rfl hbtn
  | inSw x =>
    obtain ⟨-, hsw, -⟩ := h x
    exact absurd rfl hsw
  | inEcho x =>
    obtain ⟨-, -, hecho⟩ := h x
    exact absurd rfl hecho
  | lit a =>
    simp only [exec, execLit]
    split <;> rfl
  | dly a =>
    simp only [exec, execDly]
    split <;> rfl
  | _ => rfl

/-- A busy block's tick depends on no line but RST, and ECHO in WAIT_RISE and MEASURE (R136). -/
theorem step_withLines_of_busy {s : State} {l : Lines} (hbusy : s.phase ≠ .ready) (hrst : l.rst = s.lines.rst)
    (hecho : s.phase = .waitRise ∨ s.phase = .measure → l.echo = s.lines.echo) :
    step (s.withLines l) = step s := by
  cases h : s.lines.rst with
  | true => rw [step_reset h, step_reset (s := s.withLines l) (hrst.trans h), State.resetTick_withLines]
  | false =>
    rw [step_of_busy h hbusy, step_of_busy (s := s.withLines l) (hrst.trans h) hbusy,
      State.phaseTick_withLines hecho, State.advance_withLines]

/-- A READY block's tick depends on no line but RST and the command port, unless the port's word reads another
(R35). -/
theorem step_withLines_of_ready {s : State} {l : Lines} (hready : s.phase = .ready) (hrst : l.rst = s.lines.rst)
    (hvalid : l.cmdValid = s.lines.cmdValid) (hcmd : l.cmd = s.lines.cmd)
    (hreads : ∀ i, decode s.lines.cmd = .ok i → ReadsNoLine i) : step (s.withLines l) = step s := by
  have haccepts : (s.withLines l).accepts = s.accepts := by
    show (decide (s.phase = .ready) && !l.rst && l.cmdValid) = s.accepts
    rw [hrst, hvalid]
    rfl
  have hword : (s.withLines l).lines.cmd = s.lines.cmd := hcmd
  obtain ⟨h, hstep⟩ | ⟨h, i, hdecode, hstep⟩ | ⟨h, e, hdecode, hstep⟩ | ⟨h, hidle, hstep⟩ := step_cases s <;> rw [hstep]
  · rw [step_reset (s := s.withLines l) (hrst.trans h), State.resetTick_withLines]
  · rw [step_of_decode (haccepts.trans h) (hword ▸ hdecode), closeTick_exec_withLines (hreads i hdecode)]
  · rw [step_of_reject (haccepts.trans h) (hword ▸ hdecode)]
    rfl
  · rw [step_of_phase (s := s.withLines l) (hrst.trans h) (haccepts.trans hidle),
      State.phaseTick_withLines (by simp [hready]), State.advance_withLines]

/-- Settles O30, in a busy block and in a READY one. -/
theorem unreadLinesHaveNoEffect : Obligations.UnreadLinesHaveNoEffect := by
  refine ⟨fun s l hbusy hrst hecho => step_withLines_of_busy hbusy hrst hecho,
    fun s l hready hrst hvalid hcmd hreads => step_withLines_of_ready hready hrst hvalid hcmd ?_⟩
  rintro i hdecode x
  obtain ⟨hbtn, hsw, hech⟩ := hreads x
  exact ⟨fun h => hbtn (h ▸ hdecode), fun h => hsw (h ▸ hdecode), fun h => hech (h ▸ hdecode)⟩

end Sys2Proof.Machine
end

section
/-!
PROOFS. Waiting: a block whose phase goes on for `n` ticks differs from what it was by the counter, the levels and the
withdrawn response only; WAIT_RISE without a rise and MEASURE without a fall go on for ever (R134, R135).
-/
namespace Sys2Proof.Machine

/-! ### The counter and the environment after several ticks -/

/-- The state after `n` ticks of the counter and the environment alone (R8). -/
def State.elapsed (s : State) (n : Nat) : State :=
  { s with
    tick := s.tick + BitVec.ofNat 32 n
    lines := s.linesAt n
    coming := s.coming.drop n
    draws := s.draws + (n - s.coming.length) }

theorem State.elapsed_zero (s : State) : s.elapsed 0 = s := by
  simp [State.elapsed]

/-- The next levels after `n` ticks are those of tick `n + 1`. -/
theorem State.lines_elapsed_advance (s : State) (n : Nat) : (s.elapsed n).advance.lines = s.linesAt (n + 1) := by
  show (s.coming.drop n).headD (Config.freeLines (s.draws + (n - s.coming.length))) = _
  rw [List.headD_eq_head?_getD, List.head?_drop, ← List.getD_eq_getElem?_getD]
  rfl

/-- A free draw is counted exactly where no level is scheduled any more. -/
theorem State.draws_elapsed_advance (s : State) (n : Nat) :
    (s.elapsed n).advance.draws = s.draws + (n + 1 - s.coming.length) := by
  show (if (s.coming.drop n).isEmpty then s.draws + (n - s.coming.length) + 1
    else s.draws + (n - s.coming.length)) = _
  simp only [List.isEmpty_iff, List.drop_eq_nil_iff]
  split <;> omega

/-- One more tick of the counter and the environment. -/
theorem State.elapsed_advance (s : State) (n : Nat) : (s.elapsed n).advance = s.elapsed (n + 1) := by
  have htick : s.tick + BitVec.ofNat 32 n + 1#32 = s.tick + BitVec.ofNat 32 (n + 1) := by
    rw [BitVec.add_assoc, ← BitVec.ofNat_add]
  calc (s.elapsed n).advance
    _ = { s with
          tick := s.tick + BitVec.ofNat 32 n + 1#32
          lines := (s.elapsed n).advance.lines
          coming := (s.coming.drop n).tail
          draws := (s.elapsed n).advance.draws } := rfl
    _ = s.elapsed (n + 1) := by
      rw [htick, s.lines_elapsed_advance, List.tail_drop, s.draws_elapsed_advance]
      rfl

/-! ### A phase that goes on -/

/-- The state after `n` ticks in which no phase ends: nothing but the response is withdrawn (R35). -/
def State.waited (s : State) (n : Nat) : State := { s.elapsed n with rspv := decide (n = 0) && s.rspv }

theorem State.waited_zero (s : State) : s.waited 0 = s := by
  simp [State.waited, State.elapsed_zero]

theorem State.waited_noResponse_advance (s : State) (n : Nat) :
    (s.waited n).noResponse.advance = s.waited (n + 1) :=
  congrArg State.noResponse (s.elapsed_advance n)

/-- A busy block whose phase ends in none of `n` ticks waits through them. -/
theorem runTicks_waited {s : State} {n : Nat} (hbusy : s.phase ≠ .ready) (hrst : s.noResetFor n)
    (hwait : ∀ k, k < n → (s.waited k).phaseTick = (s.waited k).noResponse) :
    runTicks n s = .next (s.waited n) := by
  have hstep : ∀ k t, k < n → t = s.waited k → ∃ u, step t = .next u ∧ u = s.waited (k + 1) := by
    rintro k _ hk rfl
    rw [step_of_busy (s := s.waited k) (hrst k hk) hbusy, hwait k hk, s.waited_noResponse_advance]
    exact ⟨_, rfl, rfl⟩
  obtain ⟨_, hrun, rfl⟩ := exists_runTicks_of_invariant (I := fun k t => t = s.waited k) s.waited_zero.symm hstep
  exact hrun

/-! ### The two hangs -/

/-- WAIT_RISE goes on while ECHO is low (R131). -/
theorem State.phaseTick_of_waitRise_of_low {s : State} (hphase : s.phase = .waitRise) (hlow : s.lines.echo = false) :
    s.phaseTick = s.noResponse := by
  simp [State.phaseTick_of_waitRise hphase, State.waitRiseTick, hlow]

/-- MEASURE goes on while ECHO is high (R132). -/
theorem State.phaseTick_of_measure_of_high {s : State} (hphase : s.phase = .measure) (hhigh : s.lines.echo = true) :
    s.phaseTick = s.noResponse := by
  simp [State.phaseTick_of_measure hphase, State.measureTick, hhigh]

/-- A block that has waited is still busy and silent (R35). -/
theorem State.waited_silent {s : State} {n : Nat} (hbusy : s.phase ≠ .ready) (hpos : 0 < n) :
    (s.waited n).cmdReady = false ∧ (s.waited n).rspv = false := by
  have hphase : (s.waited n).phase ≠ .ready := hbusy
  have hne : n ≠ 0 := by omega
  exact ⟨by simp [State.cmdReady, hphase], by simp [State.waited, hne]⟩

/-- Settles O27: WAIT_RISE goes on in every tick. -/
theorem hangsWaitingForTheRise : Obligations.HangsWaitingForTheRise := by
  intro s n hphase hrst hlow hpos
  have hbusy : s.phase ≠ .ready := by simp [hphase]
  obtain ⟨hready, hsilent⟩ := State.waited_silent hbusy hpos
  have hrun := runTicks_waited hbusy hrst fun k hk => State.phaseTick_of_waitRise_of_low hphase (hlow k hk)
  exact ⟨_, hrun, hphase, hready, hsilent, rfl, rfl, fun ⟨_, hlow⟩ => hlow (.inr (.inl hphase)), rfl, rfl, rfl,
    rfl, rfl, rfl⟩

/-- Settles O28: MEASURE goes on in every tick. -/
theorem hangsWaitingForTheFall : Obligations.HangsWaitingForTheFall := by
  intro s n hphase hrst hhigh hpos
  have hbusy : s.phase ≠ .ready := by simp [hphase]
  obtain ⟨hready, hsilent⟩ := State.waited_silent hbusy hpos
  have hrun := runTicks_waited hbusy hrst fun k hk => State.phaseTick_of_measure_of_high hphase (hhigh k hk)
  exact ⟨_, hrun, hphase, hready, hsilent, rfl, rfl, rfl, rfl, rfl, rfl, rfl, rfl, rfl⟩

end Sys2Proof.Machine
end

section
/-!
PROOFS. MEAS as a whole command: the exact state in every tick of a measurement whose echo rises and falls, and the
reading it ends in (R133).
-/
namespace Sys2Proof.Machine

/-! ### The states of a measurement -/

/-- The block `k` ticks after `s` in the phase `p` of a measurement, which waits since `start` ticks after `s` (R29,
R128 to R131). -/
def State.measuring (s : State) (f : Flags) (k : Nat) (p : Phase) (start : Nat) (trig : Bool) : State :=
  { s.elapsed k with
    f := f
    phase := p
    t0 := s.tick + BitVec.ofNat 32 start
    trig := trig
    rspv := false }

theorem State.measuring_advance (s : State) (f : Flags) (k : Nat) (p : Phase) (start : Nat) (trig : Bool) :
    (s.measuring f k p start trig).advance = s.measuring f (k + 1) p start trig :=
  congrArg (fun t : State =>
    { t with f := f, phase := p, t0 := s.tick + BitVec.ofNat 32 start, trig := trig, rspv := false })
    (s.elapsed_advance k)

/-- The wait of a phase has lasted for the ticks since its start (R170). -/
theorem State.sinceT0_measuring (s : State) (f : Flags) {k start : Nat} (p : Phase) (trig : Bool) (h : start ≤ k) :
    (s.measuring f k p start trig).sinceT0 = BitVec.ofNat 32 (k - start) := by
  obtain ⟨d, rfl⟩ := Nat.exists_eq_add_of_le h
  show s.tick + BitVec.ofNat 32 (start + d) - (s.tick + BitVec.ofNat 32 start) = _
  rw [Nat.add_sub_cancel_left, BitVec.ofNat_add]
  bv_omega

/-- Where a measurement stands `k` ticks after `s` took its MEAS, with `e` the tick in which WAIT_RISE sees the echo
high (R133). -/
inductive MeasSchedule (s : State) (f : Flags) (e k : Nat) : State → Prop where
  | quiet (pos : 0 < k) (le : k ≤ 50000) : MeasSchedule s f e k (s.measuring f k .quiet 0 false)
  | trigger (ge : 50001 ≤ k) (le : k ≤ 50501) : MeasSchedule s f e k (s.measuring f k .trigger 50000 true)
  | waitRise (ge : 50502 ≤ k) (le : k ≤ e) : MeasSchedule s f e k (s.measuring f k .waitRise 50000 false)
  | measure (ge : 50502 ≤ k) (lt : e < k) : MeasSchedule s f e k (s.measuring f k .measure e false)

/-! ### One tick of a measurement -/

/-- A tick of a busy block ends with one tick of the counter and the environment. -/
theorem step_of_phaseTick_eq_measuring {s t : State} {f : Flags} {k start : Nat} {p : Phase} {trig : Bool}
    (hrst : t.lines.rst = false) (hbusy : t.phase ≠ .ready) (h : t.phaseTick = s.measuring f k p start trig) :
    step t = .next (s.measuring f (k + 1) p start trig) := by
  rw [step_of_busy hrst hbusy, h, State.measuring_advance]

/-- QUIET goes on until 50,000 ticks after its start, and then raises TRIG (R129). -/
theorem State.phaseTick_measuring_quiet (s : State) (f : Flags) {k : Nat} (hle : k ≤ 50000) :
    (s.measuring f k .quiet 0 false).phaseTick =
      if k = 50000 then s.measuring f k .trigger k true else s.measuring f k .quiet 0 false := by
  have hsince : (s.measuring f k .quiet 0 false).sinceT0.toNat = k := by
    rw [State.sinceT0_measuring _ _ _ _ (by omega), BitVec.toNat_ofNat]
    omega
  have hend : rfb.quietTicks ≤ k ↔ k = 50000 := ⟨hle.antisymm, Eq.ge⟩
  rw [State.phaseTick_of_quiet rfl, State.quietTick, hsince]
  simp only [hend]
  rfl

/-- TRIGGER goes on until 501 ticks after its start, and then lowers TRIG (R130). -/
theorem State.phaseTick_measuring_trigger (s : State) (f : Flags) {k : Nat} (hge : 50001 ≤ k) (hle : k ≤ 50501) :
    (s.measuring f k .trigger 50000 true).phaseTick =
      if k = 50501 then s.measuring f k .waitRise 50000 false else s.measuring f k .trigger 50000 true := by
  have hsince : (s.measuring f k .trigger 50000 true).sinceT0.toNat = k - 50000 := by
    rw [State.sinceT0_measuring _ _ _ _ (by omega), BitVec.toNat_ofNat]
    omega
  have hend : rfb.trigTicks ≤ k - 50000 ↔ k = 50501 := by
    show 501 ≤ k - 50000 ↔ k = 50501
    omega
  rw [State.phaseTick_of_trigger rfl, State.triggerTick, hsince]
  simp only [hend]
  rfl

/-- WAIT_RISE goes on until the echo is high, and then samples TICK (R131). -/
theorem State.phaseTick_measuring_waitRise (s : State) (f : Flags) (k : Nat) :
    (s.measuring f k .waitRise 50000 false).phaseTick =
      if (s.linesAt k).echo then s.measuring f k .measure k false else s.measuring f k .waitRise 50000 false :=
  State.phaseTick_of_waitRise rfl

/-- The tick that takes MEAS starts the quiet period (R128). -/
theorem step_takes_meas_measuring {s : State} {f : Flags} {x : Word} (h : s.takesWord (encode (.meas f x))) :
    step s = .next (s.measuring f 1 .quiet 0 false) := by
  rw [step_of_takesWord h (decode_encode_meas f x), exec_meas, ← State.measuring_advance]
  simp [closeTick, State.measuring, State.elapsed_zero]

/-- The levels of ECHO with which the measurement of `s` reads a pulse from tick `e` to tick `g` (R133). -/
structure State.EchoPulse (s : State) (e g : Nat) : Prop where
  ge : 50502 ≤ e
  lt : e < g
  low : ∀ k, 50502 ≤ k → k < e → (s.linesAt k).echo = false
  high : ∀ k, e ≤ k → k < g → (s.linesAt k).echo = true
  fall : (s.linesAt g).echo = false

/-- Up to the fall of the echo the measurement keeps its schedule. -/
theorem MeasSchedule.next_tick {s t : State} {f : Flags} {e g k : Nat} (h : MeasSchedule s f e k t)
    (hpulse : s.EchoPulse e g) (hrst : (s.linesAt k).rst = false) (hk : k < g) :
    ∃ u, step t = .next u ∧ MeasSchedule s f e (k + 1) u := by
  obtain ⟨hge, -, hlow, hhigh, -⟩ := hpulse
  cases h with
  | quiet pos le =>
    have htick := s.phaseTick_measuring_quiet f le
    by_cases hend : k = 50000
    · subst hend
      exact ⟨_, step_of_phaseTick_eq_measuring hrst nofun htick, .trigger (by omega) (by omega)⟩
    · rw [if_neg hend] at htick
      exact ⟨_, step_of_phaseTick_eq_measuring hrst nofun htick, .quiet (by omega) (by omega)⟩
  | trigger ge le =>
    have htick := s.phaseTick_measuring_trigger f ge le
    by_cases hend : k = 50501
    · rw [if_pos hend] at htick
      exact ⟨_, step_of_phaseTick_eq_measuring hrst nofun htick, .waitRise (by omega) (by omega)⟩
    · rw [if_neg hend] at htick
      exact ⟨_, step_of_phaseTick_eq_measuring hrst nofun htick, .trigger (by omega) (by omega)⟩
  | waitRise ge le =>
    have htick := s.phaseTick_measuring_waitRise f k
    by_cases hend : k = e
    · subst hend
      rw [if_pos (hhigh k le hk)] at htick
      exact ⟨_, step_of_phaseTick_eq_measuring hrst nofun htick, .measure (by omega) (by omega)⟩
    · rw [hlow k ge (by omega)] at htick
      exact ⟨_, step_of_phaseTick_eq_measuring hrst nofun htick, .waitRise (by omega) (by omega)⟩
  | measure ge lt =>
    have htick := State.phaseTick_of_measure_of_high (s := s.measuring f k .measure e false) rfl
      (hhigh k (by omega) hk)
    exact ⟨_, step_of_phaseTick_eq_measuring hrst nofun htick, .measure (by omega) (by omega)⟩

/-- In every tick of its schedule the measurement is busy and silent, and TRIG is high in TRIGGER alone (R133). -/
theorem MeasSchedule.silent {s t : State} {f : Flags} {e k : Nat} (h : MeasSchedule s f e k t) :
    t.rspv = false ∧ t.phase ≠ .ready ∧ t.trig = decide (50001 ≤ k ∧ k ≤ 50501) := by
  cases h with
  | quiet pos le => exact ⟨rfl, nofun, (decide_eq_false (by omega)).symm⟩
  | trigger ge le => exact ⟨rfl, nofun, (decide_eq_true ⟨ge, le⟩).symm⟩
  | waitRise ge le => exact ⟨rfl, nofun, (decide_eq_false (by omega)).symm⟩
  | measure ge lt => exact ⟨rfl, nofun, (decide_eq_false (by omega)).symm⟩

/-! ### The whole command -/

/-- The run of a measurement up to the fall of its echo. -/
theorem runTicks_measSchedule {s : State} {f : Flags} {x : Word} {e g k : Nat}
    (htakes : s.takesWord (encode (.meas f x))) (hrst : s.noResetFor (g + 1)) (hpulse : s.EchoPulse e g)
    (hpos : 0 < k) (hle : k ≤ g) : ∃ t, runTicks k s = .next t ∧ MeasSchedule s f e k t := by
  obtain ⟨m, rfl⟩ : ∃ m, k = m + 1 := ⟨k - 1, by omega⟩
  rw [runTicks_of_step (step_takes_meas_measuring htakes)]
  exact exists_runTicks_of_invariant (I := fun j => MeasSchedule s f e (j + 1)) (.quiet (by omega) (by omega))
    fun j t hj ht => ht.next_tick hpulse (hrst (j + 1) (by omega)) (by omega)

/-- The tick in which the echo falls ends the measurement with the reading of the pulse (R132). -/
theorem step_measuring_of_fall {s : State} {f : Flags} {e g : Nat} (hrst : (s.linesAt g).rst = false)
    (hpulse : s.EchoPulse e g) :
    step (s.measuring f g .measure e false) =
      .next ({ (s.measuring f g .measure e false).finishReading f (BitVec.ofNat 32 (g - e)) with
        phase := .ready } : State).advance := by
  obtain ⟨-, hlt, -, -, hfall⟩ := hpulse
  have hlow : (s.measuring f g .measure e false).lines.echo = false := hfall
  rw [step_of_busy (s := s.measuring f g .measure e false) hrst nofun, State.phaseTick_of_measure rfl,
    State.measureTick, hlow, State.sinceT0_measuring _ _ _ _ hlt.le]
  rfl

/-- Settles O25: the schedule gives every tick up to the fall of the echo, and the reading the one after it. -/
theorem measMeasuresTheEcho : Obligations.MeasMeasuresTheEcho := by
  intro s f x e g htakes hrst hge hlt hlow hhigh hfall
  have hpulse : s.EchoPulse e g := ⟨hge, hlt, hlow, hhigh, hfall⟩
  constructor
  · obtain ⟨t, hrun, hschedule⟩ := runTicks_measSchedule htakes hrst hpulse (k := g) (by omega) le_rfl
    cases hschedule with
    | quiet | trigger | waitRise => omega
    | measure =>
      have hwidth : (BitVec.ofNat 32 (g - e)).toNat = (g - e) % 2 ^ 32 := BitVec.toNat_ofNat ..
      refine ⟨_, runTicks_snoc hrun (step_measuring_of_fall (hrst g (by omega)) hpulse), ?_, rfl, rfl, rfl, rfl, rfl,
        ?_, ?_, ?_, rfl, responseWord_err .., responseWord_data ..⟩
      · exact congrArg State.tick (s.elapsed_advance g)
      · rw [← hwidth, ← distWord_eq]
        rfl
      · rw [← hwidth, ← ovfOf_eq]
        rfl
      · rw [← hwidth, ← ledNext_eq]
        rfl
  · intro k hpos hle
    obtain ⟨t, hrun, hschedule⟩ := runTicks_measSchedule htakes hrst hpulse hpos hle
    exact ⟨t, hrun, hschedule.silent⟩

end Sys2Proof.Machine
end

section
/-!
PROOFS. Time and the arrows of the sequencer: a tick without reset adds one to TICK and moves the levels on by one, and
changes PHASE only along the arrows of MEAS and DLY (R21, R170, R172).
-/
namespace Sys2Proof.Machine

/-! ### Elapsed ticks -/

/-- The sequencer leaves the levels to the environment (R8). -/
theorem SequencerTick.linesAt_eq {s u : State} (h : SequencerTick s u) (k : Nat) : u.linesAt k = s.linesAt k := by
  cases h <;> rfl

/-- What every tick without reset does to the counter and the levels, whatever the sequencer does in it (R8, R21). -/
theorem step_elapses {s : State} (hrst : s.lines.rst = false) :
    ∃ t, step s = .next t ∧ t.tick = s.tick + 1#32 ∧ ∀ k, t.linesAt k = s.linesAt (k + 1) := by
  obtain ⟨u, htick, hstep⟩ := step_sequencerTick hrst
  exact ⟨_, hstep, congrArg (· + 1#32) htick.tick_eq, fun k => by rw [State.linesAt_advance, htick.linesAt_eq]⟩

/-- The counter and the levels `n` ticks of a run without reset later. -/
theorem runTicks_elapses {s : State} {n : Nat} (hrst : s.noResetFor n) :
    ∃ t, runTicks n s = .next t ∧ t.tick = s.tick + BitVec.ofNat 32 n ∧ ∀ k, t.linesAt k = s.linesAt (n + k) := by
  induction n with
  | zero => exact ⟨s, rfl, by simp, by simp⟩
  | succ n ih =>
    obtain ⟨t, hrun, htick, hlines⟩ := ih fun k hk => hrst k (by omega)
    have hlow : t.lines.rst = false := (congrArg Lines.rst (hlines 0)).trans (hrst n (by omega))
    obtain ⟨u, hstep, hcount, hmove⟩ := step_elapses hlow
    refine ⟨u, runTicks_snoc hrun hstep, ?_, fun k => ?_⟩
    · rw [hcount, htick, BitVec.add_assoc, ← BitVec.ofNat_add]
    · rw [hmove, hlines, Nat.add_right_comm, Nat.add_assoc]

/-- Settles O8: the counter has gone on by `n`, modulo its range. -/
theorem tickDifferenceIsElapsedTicks : Obligations.TickDifferenceIsElapsedTicks := by
  intro s n hrst
  obtain ⟨t, hrun, htick, hlines⟩ := runTicks_elapses hrst
  have hdiff : t.tick - s.tick = BitVec.ofNat 32 n := by rw [htick, BitVec.add_comm, BitVec.add_sub_cancel]
  exact ⟨t, hrun, by rw [hdiff, BitVec.toNat_ofNat], hlines⟩

/-! ### The arrows -/

/-- Settles O24: seven of the sequencer's actions write PHASE, and each is one of the arrows. -/
theorem sequencerTakesOnlyItsArrows : Obligations.SequencerTakesOnlyItsArrows := by
  intro s t hrst hstep hne
  obtain ⟨u, htick, rfl⟩ := sequencerTick_of_step hrst hstep
  cases htick with
  | meas f x takes =>
    have ⟨_, _, _, hready⟩ := takes
    exact .inl ⟨hready, rfl, f, x, takes⟩
  | quietEnd quiet elapsed => exact .inr (.inl ⟨quiet, rfl, elapsed⟩)
  | triggerEnd trigger elapsed => exact .inr (.inr (.inl ⟨trigger, rfl, elapsed⟩))
  | rise waitRise high => exact .inr (.inr (.inr (.inl ⟨waitRise, rfl, high⟩)))
  | fall measure low => exact .inr (.inr (.inr (.inr (.inl ⟨measure, rfl, low, rfl⟩))))
  | dly a takes legal =>
    have ⟨_, _, _, hready⟩ := takes
    exact .inr (.inr (.inr (.inr (.inr (.inl ⟨hready, rfl, a, takes⟩)))))
  | delayEnd delay elapsed => exact .inr (.inr (.inr (.inr (.inr (.inr ⟨delay, rfl, elapsed, rfl⟩)))))
  | _ => exact absurd rfl hne

end Sys2Proof.Machine
end

section
/-!
PROOFS. DLY: its acceptance, the wait of its delay, and the response that ends it (R166 to R168).
-/
namespace Sys2Proof.Machine

/-! ### Acceptance -/

/-- The state that an accepted DLY leaves before the tick ends (R166). -/
def State.delaying (s : State) (a : Word) : State :=
  { s with nt := BitVec.ofNat 32 (50000000 * a.toNat), t0 := s.tick, phase := .delay, rspv := false }

/-- DLY starts a delay that fits the counter, and is a command error otherwise (R166). -/
theorem exec_dly (a : Word) (s : State) :
    exec (.dly a) s = .next (if 50000000 * a.toNat < 2 ^ 32 then s.delaying a else s.rejected) := by
  show execDly a s = _
  simp only [execDly, delayLegal_iff]
  split <;> rfl

theorem exec_dly_of_le {a : Word} (h : a.toNat ≤ 85) (s : State) : exec (.dly a) s = .next (s.delaying a) := by
  rw [exec_dly, if_pos (by omega)]

/-- Settles O16: 85 seconds are the longest delay that fits; the modifier and the length are tested one after the other,
with the same effect. -/
theorem dlyStartsTheDelay : Obligations.DlyStartsTheDelay := by
  refine ⟨fun a s hle => exec_dly_of_le hle s, fun a s hge => ?_, fun s w htakes hopc => ?_⟩
  · rw [exec_dly, if_neg (by omega)]
  · have hdecode : decode w = withZeroModifier (modField w) (.dly (argField w)) := by rw [decode, opcField, hopc]; rfl
    rw [step_of_withZeroModifier htakes hdecode (exec_dly _ s), ← ite_and]
    rfl

/-! ### The delay as a whole -/

/-- The tick that takes DLY starts the delay (R166). -/
theorem step_takes_dly {s : State} {a : Word} (h : s.takesWord (encode (.dly a))) (hle : a.toNat ≤ 85) :
    step s = .next (s.delaying a).advance := by
  rw [step_of_takesWord h (decodeOfEncodeIsTheOperation _), exec_dly_of_le hle]
  rfl

/-- DLY leaves the levels to the tick's end (R8). -/
theorem State.linesAt_delaying_advance (s : State) (a : Word) (k : Nat) :
    (s.delaying a).advance.linesAt k = s.linesAt (k + 1) := by
  rw [State.linesAt_advance, State.linesAt_congr rfl rfl rfl]
  rfl

/-- The first tick of DELAY is the one after the acceptance, in which one tick has passed (R167, R168). -/
theorem State.sinceT0_delaying_waited (s : State) (a : Word) (k : Nat) :
    ((s.delaying a).advance.waited k).sinceT0 = BitVec.ofNat 32 (k + 1) := by
  show s.tick + 1#32 + BitVec.ofNat 32 k - s.tick = _
  rw [BitVec.ofNat_add]
  bv_omega

/-- DELAY goes on until the delay's ticks have passed, and then responds (R167). -/
theorem State.phaseTick_delaying_waited (s : State) {a : Word} {k : Nat} (ha : a.toNat ≤ 85) (hk : k + 1 < 2 ^ 32) :
    ((s.delaying a).advance.waited k).phaseTick =
      if 50000000 * a.toNat ≤ k + 1
      then { ((s.delaying a).advance.waited k).respond false 0#32 with phase := .ready }
      else ((s.delaying a).advance.waited k).noResponse := by
  have hsince : ((s.delaying a).advance.waited k).sinceT0.toNat = k + 1 := by
    rw [State.sinceT0_delaying_waited, BitVec.toNat_ofNat, Nat.mod_eq_of_lt hk]
  have hlength : ((s.delaying a).advance.waited k).nt.toNat = 50000000 * a.toNat := by
    show (BitVec.ofNat 32 (50000000 * a.toNat)).toNat = _
    rw [BitVec.toNat_ofNat, Nat.mod_eq_of_lt (by omega)]
  rw [State.phaseTick_of_delay rfl, State.delayTick, hsince, hlength]

/-- The run of a delay up to the tick in which its ticks have passed. -/
theorem runTicks_delaying_waited {s : State} {a : Word} {k : Nat} (htakes : s.takesWord (encode (.dly a)))
    (ha : a.toNat ≤ 85) (hrst : s.noResetFor (k + 1)) (hk : k < max (50000000 * a.toNat) 1) :
    runTicks (k + 1) s = .next ((s.delaying a).advance.waited k) := by
  rw [runTicks_of_step (step_takes_dly htakes ha)]
  refine runTicks_waited nofun (fun j hj => ?_) fun j hj => ?_
  · rw [State.linesAt_delaying_advance]
    exact hrst (j + 1) (by omega)
  · rw [s.phaseTick_delaying_waited ha (by omega), if_neg (by omega)]

/-- The tick in which the delay's ticks have passed ends it with the response `{0, 0}` (R167). -/
theorem step_delaying_waited_of_le {s : State} {a : Word} {k : Nat} (ha : a.toNat ≤ 85) (hk : k + 1 < 2 ^ 32)
    (hrst : (s.linesAt (k + 1)).rst = false) (hend : 50000000 * a.toNat ≤ k + 1) :
    step ((s.delaying a).advance.waited k) =
      .next ({ ((s.delaying a).advance.waited k).respond false 0#32 with phase := .ready } : State).advance := by
  rw [← State.linesAt_delaying_advance s a] at hrst
  rw [step_of_busy (s := (s.delaying a).advance.waited k) hrst nofun, s.phaseTick_delaying_waited ha hk, if_pos hend]

/-- Settles O29: DELAY goes on until `max(50,000,000 × a, 1)` ticks after the acceptance, and then the next tick
responds. -/
theorem dlyDelaysItsSeconds : Obligations.DlyDelaysItsSeconds := by
  intro s a htakes ha hrst
  obtain ⟨m, hm⟩ : ∃ m, max (50000000 * a.toNat) 1 = m + 1 := ⟨max (50000000 * a.toNat) 1 - 1, by omega⟩
  have hwait : ∀ k, k ≤ m → runTicks (k + 1) s = .next ((s.delaying a).advance.waited k) := fun k hk =>
    runTicks_delaying_waited htakes ha (fun j hj => hrst j (by omega)) (by omega)
  rw [hm] at hrst ⊢
  constructor
  · have hrun := runTicks_snoc (hwait m le_rfl)
      (step_delaying_waited_of_le ha (by omega) (hrst (m + 1) (by omega)) (by omega))
    obtain ⟨t, hrun', htick, -⟩ := runTicks_elapses hrst
    obtain rfl := Host.Outcome.next.inj (hrun.symm.trans hrun')
    exact ⟨_, hrun, rfl, rfl, rfl, htick, rfl, rfl, rfl, rfl, rfl, rfl, rfl⟩
  · intro k hpos hle
    obtain ⟨j, rfl⟩ : ∃ j, k = j + 1 := ⟨k - 1, by omega⟩
    exact ⟨_, hwait j (by omega), Bool.and_false _, rfl⟩

end Sys2Proof.Machine
end

section
/-!
PROOFS. IN and OUT: the number each port reads as, what the thirteen operations answer, and which port a command word
names (R150 to R165, R169).
-/
namespace Sys2Proof.Machine

/-! ### IN -/

/-- What a port reads as, as a number (R51). -/
def portValue (s : State) : Port → Nat
  | .tick => s.tick.toNat
  | .btn => s.lines.btn.toNat
  | .sw => s.lines.sw.toNat
  | .echo => s.lines.echo.toNat
  | .trig => s.trig.toNat
  | .led => s.led.toNat
  | .hex => s.hex.toNat
  | .pulse => s.pulse.toNat
  | .dist => s.dist.toNat
  | .status => 2 * s.cerr.toNat + s.ovf.toNat

theorem toNat_zext32_ofBool (b : Bool) : (zext32 (BitVec.ofBool b)).toNat = b.toNat := by
  rw [toNat_zext32 (by decide), BitVec.toNat_ofBool]

/-- STATUS holds OVF in bit 0 and CERR in bit 1 (R27). -/
theorem toNat_statusWord (s : State) : (statusWord s).toNat = 2 * s.cerr.toNat + s.ovf.toNat := by
  unfold statusWord
  cases s.cerr <;> cases s.ovf <;> rfl

theorem toNat_portRead (q : Port) (s : State) : (portRead q s).toNat = portValue s q := by
  cases q with
  | tick | hex | pulse | dist => rfl
  | btn | sw | led => exact toNat_zext32 (by decide) _
  | echo | trig => exact toNat_zext32_ofBool _
  | status => exact toNat_statusWord s

/-- The operation IN of a port (R74). -/
def inOf (x : Word) : Port → Instr
  | .tick => .inTick x
  | .btn => .inBtn x
  | .sw => .inSw x
  | .echo => .inEcho x
  | .trig => .inTrig x
  | .led => .inLed x
  | .hex => .inHex x
  | .pulse => .inPulse x
  | .dist => .inDist x
  | .status => .inStatus x

/-- IN answers its port's number and writes nothing (R150). -/
theorem exec_inOf (x : Word) (s : State) (q : Port) : exec (inOf x q) s = .next (s.answered (portValue s q)) := by
  have hin : exec (inOf x q) s = .next (s.inPort q) := by cases q <;> rfl
  rw [hin, State.inPort, answered_eq, toNat_portRead]

theorem decodeIn_portNumber (q : Port) (a : Word) : decodeIn (portNumber q) a = .ok (inOf a q) := by
  cases q <;> rfl

/-- The ports in the order of their numbers (R51). -/
def ports : List Port := [.tick, .btn, .sw, .echo, .trig, .led, .hex, .pulse, .dist, .status]

theorem portNumber_ports_getD : ∀ m : BitVec 4, m.toNat < 10 → portNumber (ports.getD m.toNat .tick) = m := by decide

/-- A modifier is a port's number or a reserved one (R51, R57). -/
theorem exists_portNumber_eq_or_reserved (m : BitVec 4) : (∃ q, portNumber q = m) ∨ 10 ≤ m.toNat :=
  (Nat.lt_or_ge m.toNat 10).imp_left fun hlt => ⟨_, portNumber_ports_getD m hlt⟩

/-- Settles O17: the modifier names a port, whose IN answers, or a reserved number, which is rejected. -/
theorem inRespondsWithThePort : Obligations.InRespondsWithThePort := by
  refine ⟨fun x s => ?_, fun s w htakes hopc => ?_⟩
  · exact ⟨exec_inOf x s .tick, exec_inOf x s .btn, exec_inOf x s .sw, exec_inOf x s .echo, exec_inOf x s .trig,
      exec_inOf x s .led, exec_inOf x s .hex, exec_inOf x s .pulse, exec_inOf x s .dist, exec_inOf x s .status⟩
  · have hdecode : decode w = decodeIn (modField w) (argField w) := by rw [decode, opcField, hopc]; rfl
    have hmod : w.extractLsb' 32 4 = modField w := rfl
    rw [hmod]
    obtain ⟨q, hport⟩ | hreserved := exists_portNumber_eq_or_reserved (modField w)
    · rw [← hport, decodeIn_portNumber] at hdecode
      rw [step_of_takesWord htakes hdecode, exec_inOf, ← hport]
      cases q <;> rfl
    · rw [step_of_takesWord_error htakes (hdecode.trans (decodeIn_eq_error_iff.mpr ⟨rfl, hreserved⟩))]
      split
      case h_11 => rfl
      all_goals omega

/-! ### OUT -/

theorem trigBit_eq (a : Word) : trigBit a = decide (a.toNat % 2 = 1) := Nat.testBit_zero _

theorem ledBits_eq (a : Word) : ledBits a = BitVec.ofNat 10 a.toNat := by
  apply BitVec.eq_of_toNat_eq
  simp [ledBits]

theorem trigBit_argField (w : CmdWord) : trigBit (argField w) = w.getLsbD 0 := by
  simp [trigBit, argField]

theorem ledBits_argField (w : CmdWord) : ledBits (argField w) = w.extractLsb' 0 10 := by
  apply BitVec.eq_of_getLsbD_eq
  intro i hi
  simp [ledBits, argField, hi]

/-- OUT TRIG is a write of TRIG and the answer 0 (R163). -/
theorem exec_outTrig (a : Word) (s : State) : exec (.outTrig a) s = .next { s.answered 0 with trig := trigBit a } :=
  congrArg Host.Outcome.next (answered_eq (s.writeTrig a) 0#32)

/-- OUT LED is a write of LED and the answer 0 (R164). -/
theorem exec_outLed (a : Word) (s : State) : exec (.outLed a) s = .next { s.answered 0 with led := ledBits a } :=
  congrArg Host.Outcome.next (answered_eq (s.writeLed a) 0#32)

/-- OUT HEX is a write of HEX and the answer 0 (R165). -/
theorem exec_outHex (a : Word) (s : State) : exec (.outHex a) s = .next { s.answered 0 with hex := a } :=
  congrArg Host.Outcome.next (answered_eq (s.writeHex a) 0#32)

/-- A taken word of OUT whose modifier `m` names a port that accepts it (R74). -/
theorem step_of_decodeOut {s t : State} {w : CmdWord} {m : BitVec 4} {i : Instr} (h : s.takesWord w)
    (hd : decode w = decodeOut (modField w) (argField w)) (hm : modField w = m)
    (hi : decodeOut m (argField w) = .ok i) (hexec : exec i s = .next t) : step s = .next t.advance := by
  rw [hm, hi] at hd
  rw [step_of_takesWord h hd, hexec]
  rfl

/-- Settles O18: the modifier is the number of one of the three ports that accept OUT, or is rejected. -/
theorem outWritesThePort : Obligations.OutWritesThePort := by
  refine ⟨fun a s => ?_, fun s w htakes hopc => ?_⟩
  · rw [← trigBit_eq, ← ledBits_eq]
    exact ⟨exec_outTrig a s, exec_outLed a s, exec_outHex a s⟩
  · have hdecode : decode w = decodeOut (modField w) (argField w) := by rw [decode, opcField, hopc]; rfl
    rw [← trigBit_argField, ← ledBits_argField]
    split
    case h_1 hm => exact step_of_decodeOut htakes hdecode (m := 4#4) (BitVec.eq_of_toNat_eq hm) rfl (exec_outTrig _ s)
    case h_2 hm => exact step_of_decodeOut htakes hdecode (m := 5#4) (BitVec.eq_of_toNat_eq hm) rfl (exec_outLed _ s)
    case h_3 hm => exact step_of_decodeOut htakes hdecode (m := 6#4) (BitVec.eq_of_toNat_eq hm) rfl (exec_outHex _ s)
    case h_4 h4 h5 h6 =>
      exact step_of_takesWord_error htakes (hdecode.trans (decodeOut_eq_error_iff.mpr ⟨rfl, h4, h5, h6⟩))

end Sys2Proof.Machine
end

section
/-!
PROOFS. The host's reading of its switches: the source's expression for one switch, and the flags nibble (R171, R181).
-/
namespace Sys2Proof.Machine

/-- The difference clears all bits of `x >> n` but its lowest (R171). -/
theorem bitByDifference_eq (x n : Nat) : bitByDifference x n = (x >>> n) &&& 1 := by
  rw [bitByDifference, Nat.shiftRight_succ, Nat.shiftLeft_eq, Nat.and_one_is_mod]
  omega

theorem switchFlag_eq_getLsbD (sw : BitVec 10) (n : Nat) : switchFlag sw n = sw.getLsbD n := by
  rw [switchFlag, bitByDifference_eq, Nat.and_one_is_mod, Nat.shiftRight_eq_div_pow, BitVec.getLsbD,
    Nat.testBit_eq_decide_div_mod_eq]
  rfl

theorem toNat_hostFlags (sw : BitVec 10) : (hostFlags sw).toNat = (sw.toNat >>> 1) &&& 7 := by
  rw [hostFlags, BitVec.extractLsb'_toNat, ← Nat.and_two_pow_sub_one_eq_mod]

/-- Settles O42. -/
theorem switchExpressionIsTheBit : Obligations.SwitchExpressionIsTheBit :=
  ⟨bitByDifference_eq, fun sw n => ⟨switchFlag_eq_getLsbD sw n, toNat_hostFlags sw⟩⟩

end Sys2Proof.Machine
end

section
/-!
PROOFS. The host's memory: what a capture and a reset write into slots and extrema, and what they leave unchanged (R183
to R185).
-/
namespace Sys2Proof.Machine

/-! ### The switches by their bits -/

theorem constantRead_eq (sw : BitVec 10) : constantRead sw = sw.getLsbD 0 := switchFlag_eq_getLsbD sw 0

theorem decimalShift_eq (sw : BitVec 10) : decimalShift sw = sw.getLsbD 3 := switchFlag_eq_getLsbD sw 3

theorem loadMode_eq (sw : BitVec 10) : loadMode sw = sw.getLsbD 4 := switchFlag_eq_getLsbD sw 4

theorem slotSelected_eq (sw : BitVec 10) (k : Fin 5) : slotSelected sw k = sw.getLsbD (5 + k.val) :=
  switchFlag_eq_getLsbD sw (5 + k.val)

theorem unitMode_eq (sw : BitVec 10) : unitMode sw = if sw.getLsbD 1 then .m else .cm := by
  rw [unitMode, switchFlag_eq_getLsbD]

theorem unitMode_eq_cm_iff (sw : BitVec 10) : unitMode sw = .cm ↔ sw.getLsbD 1 = false := by simp [unitMode_eq]

theorem unitMode_eq_m_iff (sw : BitVec 10) : unitMode sw = .m ↔ sw.getLsbD 1 = true := by simp [unitMode_eq]

/-! ### Slots -/

theorem getElem_fillSelected (sw : BitVec 10) (w : Word) (v : Vector Word 5) (k : Fin 5) :
    (fillSelected sw w v)[k] = if sw.getLsbD (5 + k.val) = true then w else v[k] := by
  simp [fillSelected, slotSelected_eq]

/-- A save is of one unit mode's slots and of nothing else (R184). -/
theorem HostState.saveSlots_eq (h : HostState) (w : Word) :
    h.saveSlots w = { h with
      slotsCm := if unitMode h.sw = .cm then fillSelected h.sw w h.slotsCm else h.slotsCm
      slotsM := if unitMode h.sw = .m then fillSelected h.sw w h.slotsM else h.slotsM } := by
  rw [saveSlots]
  cases unitMode h.sw <;> rfl

/-- The slots of either unit mode after a save (R184). -/
theorem HostState.slots_saveSlots (h : HostState) (w : Word) (u : UnitMode) :
    (h.saveSlots w).slots u = if unitMode h.sw = u then fillSelected h.sw w (h.slots u) else h.slots u := by
  rw [saveSlots_eq]
  cases u <;> rfl

/-- A selected slot of the current unit mode takes the word, and no other slot does (R184). -/
theorem HostState.getElem_slots_saveSlots (h : HostState) (w : Word) (u : UnitMode) (k : Fin 5) :
    ((h.saveSlots w).slots u)[k] =
      if unitMode h.sw = u ∧ h.sw.getLsbD (5 + k.val) = true then w else (h.slots u)[k] := by
  rw [slots_saveSlots, ite_and]
  split
  · exact getElem_fillSelected ..
  · rfl

/-- A reset empties the slots a save would write (R185). -/
theorem HostState.getElem_slots_saveReset (p : HostParams) (h : HostState) (u : UnitMode) (k : Fin 5) :
    ((h.saveReset p).slots u)[k] =
      if unitMode h.sw = u ∧ h.sw.getLsbD (5 + k.val) = true then sentinel else (h.slots u)[k] := by
  have hslots : (h.saveReset p).slots u = (h.saveSlots sentinel).slots u := by cases u <;> rfl
  rw [hslots, getElem_slots_saveSlots]

/-- Settles O46, slot by slot; the extrema after a reset are its own fields. -/
theorem hostSlotsAreSelectedPerUnitMode : Obligations.HostSlotsAreSelectedPerUnitMode := by
  intro p h w u k
  have hsave := h.getElem_slots_saveSlots w u k
  have hreset := h.getElem_slots_saveReset p u k
  simp only [unitMode_eq, eq_comm (b := u)] at hsave hreset
  exact ⟨hsave, hreset, rfl, rfl, rfl, rfl⟩

/-! ### Extrema -/

theorem HostState.updateExtrema_twoIfs {p : HostParams} (hp : p.policy = .twoIfs) (h : HostState) (d : Word) :
    h.updateExtrema p d = { h with
      highest := if h.highest.toNat < d.toNat then d else h.highest
      lowest := if d.toNat < h.lowest.toNat then d else h.lowest } := by
  simp only [updateExtrema, hp, BitVec.lt_def]

theorem HostState.updateExtrema_elseIf {p : HostParams} (hp : p.policy = .elseIf) (h : HostState) (d : Word) :
    h.updateExtrema p d =
      if h.highest.toNat < d.toNat then { h with highest := d }
      else if d.toNat < h.lowest.toNat then { h with lowest := d } else h := by
  simp only [updateExtrema, hp, BitVec.lt_def]

/-- Under both policies Highest takes the greater of itself and the capture (R183). -/
theorem HostState.toNat_highest_updateExtrema (p : HostParams) (h : HostState) (d : Word) :
    (h.updateExtrema p d).highest.toNat = max h.highest.toNat d.toNat := by
  cases hp : p.policy with
  | twoIfs =>
    simp only [updateExtrema_twoIfs hp]
    split <;> omega
  | elseIf =>
    rw [updateExtrema_elseIf hp]
    split
    · exact (Nat.max_eq_right (Nat.le_of_lt ‹_›)).symm
    · have hkept : (if d.toNat < h.lowest.toNat then { h with lowest := d } else h).highest = h.highest := by
        split <;> rfl
      rw [hkept]
      omega

/-- Under `two_ifs` Lowest takes the lesser of itself and the capture (R183). -/
theorem HostState.toNat_lowest_updateExtrema {p : HostParams} (hp : p.policy = .twoIfs) (h : HostState) (d : Word) :
    (h.updateExtrema p d).lowest.toNat = min h.lowest.toNat d.toNat := by
  simp only [updateExtrema_twoIfs hp]
  split <;> omega

/-- Settles O45: the folds go over to the fold of `max`, and of `min`, one capture at a time. -/
theorem hostExtremaFollowThePolicy : Obligations.HostExtremaFollowThePolicy := by
  refine ⟨fun p h d hp => h.updateExtrema_twoIfs hp d, fun p h d hp => h.updateExtrema_elseIf hp d, ?_⟩
  intro p h ds hhighest hlowest
  constructor
  · have hfold := List.foldl_hom (l := ds) (init := h) (fun h : HostState => h.highest.toNat)
      (g₁ := fun h d => h.updateExtrema p d) (g₂ := fun m d => max m d.toNat)
      (fun h d => (h.toNat_highest_updateExtrema p d).symm)
    rw [List.foldl_map, ← hfold, hhighest]
    rfl
  · intro hp
    have hfold := List.foldl_hom (l := ds) (init := h) (fun h : HostState => h.lowest.toNat)
      (g₁ := fun h d => h.updateExtrema p d) (g₂ := fun m d => min m d.toNat)
      (fun h d => (h.toNat_lowest_updateExtrema hp d).symm)
    rw [List.foldl_map, ← hfold, hlowest]

end Sys2Proof.Machine
end

section
/-!
PROOFS. The host's program, command by command: what it presents at each point and what it does with the response (R178,
R181, R182, R186 to R192).
-/
namespace Sys2Proof.Machine

variable {p : HostParams} {h : HostState}

/-! ### Its commands -/

/-- Settles O48: the program's points and their commands; that no word is rejected is `hostCommand_legal`. -/
theorem hostIssuesOnlyItsCommands : Obligations.HostIssuesOnlyItsCommands := by
  intro h
  have label (l : Label) : (labelIndex l).toNat ≤ 10 := by cases l <;> decide
  have seconds (b : Bool) : shownSeconds b = 2#32 ∨ shownSeconds b = 3#32 := by cases b <;> decide
  refine ⟨?_, hostCommand_legal h⟩
  unfold hostCommand
  cases h.doing with
  | idling bf second => cases hbuttons : idleReadsButtons bf second <;> simp [hbuttons]
  | wording _ d =>
    cases hreading : hostOverflow d with
    | false => simp [hreading]
    | true => simpa [hreading] using label .err
  | fetching x _ =>
    cases x with
    | label l => exact label l
    | stored | composed => trivial
  | holding isLabel _ => exact seconds isLabel
  | measuring | presenting | rereading | placing | releasing => trivial

/-! ### Idle's first read and the release wait -/

theorem setWidth_two_eq (data : Word) : data.setWidth 2 = data.extractLsb' 0 2 :=
  BitVec.setWidth_eq_extractLsb' (by decide)

theorem setWidth_ten_eq (data : Word) : data.setWidth 10 = data.extractLsb' 0 10 :=
  BitVec.setWidth_eq_extractLsb' (by decide)

/-- A read of Idle keeps the level of the line it read (R178, R192). -/
theorem HostState.keepRead_eq (h : HostState) (buttons : Bool) (data : Word) :
    h.keepRead buttons data =
      if buttons then { h with btn := data.extractLsb' 0 2 } else { h with sw := data.extractLsb' 0 10 } := by
  rw [keepRead, setWidth_two_eq, setWidth_ten_eq]

theorem HostState.keepRead_memory (h : HostState) (buttons : Bool) (data : Word) :
    (h.keepRead buttons data).slotsCm = h.slotsCm ∧ (h.keepRead buttons data).slotsM = h.slotsM ∧
      (h.keepRead buttons data).highest = h.highest ∧ (h.keepRead buttons data).lowest = h.lowest := by
  cases buttons <;> exact ⟨rfl, rfl, rfl, rfl⟩

theorem hostReply_releasing (hd : h.doing = .releasing) (data : Word) :
    hostReply p h data =
      if data.getLsbD 0 ≠ p.pressedLevel ∧ data.getLsbD 1 ≠ p.pressedLevel
        then { h with btn := data.extractLsb' 0 2 }.toIdle else { h with btn := data.extractLsb' 0 2 } := by
  simp [hostReply, hd, setWidth_two_eq, buttonsReleased, pressed]

/-- Settles O52: the two orders of the first read, and the two ways the release wait goes on. -/
theorem hostPollsItsLines : Obligations.HostPollsItsLines := by
  intro p h data
  refine ⟨fun bf hd => ?_, fun hd => ?_⟩
  · cases bf <;> simp [hostCommand, hostReply, hd, idleReadsButtons, HostState.keepRead_eq]
  · have hcommand : hostCommand h = .inBtn 0#32 := by simp [hostCommand, hd]
    rw [hostReply_releasing hd]
    split
    case isTrue hup =>
      exact ⟨hcommand, rfl, rfl, rfl, rfl, rfl, rfl, fun _ => ⟨_, rfl⟩,
        fun hdown => absurd hdown (not_or.mpr hup)⟩
    case isFalse hdown =>
      exact ⟨hcommand, rfl, rfl, rfl, rfl, rfl, rfl, fun hup => absurd hup hdown, fun _ => hd⟩

/-! ### A capture step -/

theorem hostOverflow_iff (d : Word) : hostOverflow d = true ↔ 10000 ≤ d.toNat := decide_eq_true_iff

theorem HostState.recordCapture_of_overflow {d : Word} (hd : 10000 ≤ d.toNat) (final : Bool) (w : Word) :
    h.recordCapture p final d w = h :=
  if_pos ((hostOverflow_iff d).mpr hd)

theorem HostState.recordCapture_of_lt {d : Word} (hd : d.toNat < 10000) (final : Bool) (w : Word) :
    h.recordCapture p final d w =
      let h1 := if h.sw.getLsbD 1 = false ∧ h.sw.getLsbD 3 = false then h.updateExtrema p d else h
      if final then h1.saveSlots w else h1 := by
  simp only [recordCapture, hostOverflow_iff, Nat.not_le.mpr hd, unitMode_eq_cm_iff, decimalShift_eq, if_false]

/-- ConstantRead of the switches in a response (R88, R182). -/
theorem constantRead_extract (data : Word) : constantRead (data.extractLsb' 0 10) = data.getLsbD 0 := by
  simp [constantRead_eq]

/-- Settles O44, point by point of the capture step. -/
theorem hostCaptureStep : Obligations.HostCaptureStep := by
  intro p h final d w
  refine ⟨fun hd => ?_, fun hd => ?_, fun hd => ?_, fun hd => ?_⟩
  · simp [hostCommand, hostReply, hd]
  · simp only [hostCommand, hostReply, hd, hostOverflow_iff, labelIndex, and_self]
  · refine ⟨by simp [hostCommand, hd], fun hoverflow => ?_, fun hreading => ?_⟩
    · simp only [hostReply, hd, HostState.recordCapture_of_overflow hoverflow]
    · simp only [hostReply, hd, HostState.recordCapture_of_lt hreading]
  · simp only [hostCommand, hostReply, hd, setWidth_ten_eq, constantRead_extract, and_self]

/-! ### A display sequence -/

/-- From the point where a word is placed: OUT HEX, then DLY for the entry's seconds, then the rest (R189). -/
theorem placing_shows_and_holds {isLabel : Bool} {v : Word} {rest : List Shown}
    (hd : h.doing = .placing isLabel v rest) :
    hostCommand h = .outHex v ∧ hostCommand (hostReply p h 0#32) = .dly (shownSeconds isLabel) ∧
      hostReply p (hostReply p h 0#32) 0#32 = { h with doing := showFrom rest } := by
  simp [hostCommand, hostReply, hd]

/-- Settles O47, by the kind of the first entry. -/
theorem hostRunsTimedSequences : Obligations.HostRunsTimedSequences := by
  refine ⟨fun p h x rest w hd => ?_, rfl⟩
  cases x with
  | label l =>
    have hcommand : hostCommand h = .lit (labelIndex l) := by simp [hostCommand, hd, showFrom]
    have hreply : hostReply p h w = { h with doing := .placing true w rest } := by simp [hostReply, hd, showFrom]
    dsimp only
    rw [hcommand, hreply]
    exact ⟨by cases l <;> rfl, placing_shows_and_holds (isLabel := true) rfl⟩
  | composed v =>
    have hcommand : hostCommand h = .cmp (hostFlags h.sw) v := by simp [hostCommand, hd, showFrom]
    have hreply : hostReply p h w = { h with doing := .placing false w rest } := by simp [hostReply, hd, showFrom]
    dsimp only
    rw [hreply]
    exact ⟨hcommand, placing_shows_and_holds (isLabel := false) rfl⟩
  | stored v => exact placing_shows_and_holds hd

end Sys2Proof.Machine
end

section
/-!
PROOFS. Where the host goes from Idle: the button guard, LoadMode and the accepted button (R178 to R180, R185 to R187).
-/
namespace Sys2Proof.Machine

variable {p : HostParams} {h : HostState}

/-- What the host does once it has read both levels of an iteration of Idle (R179, R180). -/
def HostState.answerButtons (p : HostParams) (h : HostState) : HostState :=
  if buttonAccepted p h.btn then h.dispatch p else h.toIdle

/-- The second read of an iteration is of the line the first one left out (R178). -/
theorem hostReply_idling_second {bf : Bool} (hd : h.doing = .idling bf true) (data : Word) :
    hostReply p h data = (h.keepRead (!bf) data).answerButtons p := by
  simp [hostReply, hd, HostState.answerButtons, idleReadsButtons]

namespace HostState

/-! ### The ways out of Idle -/

theorem answerButtons_poll (hsame : pressed p h.btn 0 = pressed p h.btn 1) : h.answerButtons p = h.toIdle := by
  simp [answerButtons, buttonAccepted, hsame]

theorem answerButtons_accept (hone : pressed p h.btn 0 ≠ pressed p h.btn 1) :
    h.answerButtons p = h.dispatch p := by
  simp [answerButtons, buttonAccepted, hone]

theorem answerButtons_capture (hfirst : pressed p h.btn 0 = true) (hsecond : pressed p h.btn 1 = false)
    (hload : h.sw.getLsbD 4 = false) : h.answerButtons p = { h with doing := .measuring (!h.sw.getLsbD 0) } := by
  rw [answerButtons_accept (by simp [hfirst, hsecond])]
  simp only [dispatch, loadMode_eq, constantRead_eq, hload, hfirst, Bool.false_eq_true, if_false, if_true]

theorem answerButtons_reset (hfirst : pressed p h.btn 0 = false) (hsecond : pressed p h.btn 1 = true)
    (hload : h.sw.getLsbD 4 = false) : h.answerButtons p = { h.saveReset p with doing := .releasing } := by
  rw [answerButtons_accept (by simp [hfirst, hsecond])]
  simp only [dispatch, loadMode_eq, hload, hfirst, Bool.false_eq_true, if_false]

theorem answerButtons_showSlots (hfirst : pressed p h.btn 0 = true) (hsecond : pressed p h.btn 1 = false)
    (hload : h.sw.getLsbD 4 = true) : h.answerButtons p = { h with doing := showFrom (slotSequence h) } := by
  rw [answerButtons_accept (by simp [hfirst, hsecond])]
  simp only [dispatch, loadMode_eq, hload, hfirst, if_true]

theorem answerButtons_showExtrema (hfirst : pressed p h.btn 0 = false) (hsecond : pressed p h.btn 1 = true)
    (hload : h.sw.getLsbD 4 = true) : h.answerButtons p = { h with doing := showFrom (extremaSequence h) } := by
  rw [answerButtons_accept (by simp [hfirst, hsecond])]
  simp only [dispatch, loadMode_eq, hload, hfirst, Bool.false_eq_true, if_false, if_true]

/-! ### What they leave unchanged -/

@[simp] theorem saveReset_sw (p : HostParams) (h : HostState) : (h.saveReset p).sw = h.sw := by
  simp only [saveReset, saveSlots_eq]

@[simp] theorem saveReset_btn (p : HostParams) (h : HostState) : (h.saveReset p).btn = h.btn := by
  simp only [saveReset, saveSlots_eq]

theorem answerButtons_sw (p : HostParams) (h : HostState) : (h.answerButtons p).sw = h.sw := by
  unfold answerButtons dispatch
  split_ifs <;> simp [toIdle]

theorem answerButtons_btn (p : HostParams) (h : HostState) : (h.answerButtons p).btn = h.btn := by
  unfold answerButtons dispatch
  split_ifs <;> simp [toIdle]

/-- Only the reset touches slots and extrema (R185). -/
theorem answerButtons_memory
    (hother : ¬ (pressed p h.btn 0 = false ∧ pressed p h.btn 1 = true ∧ h.sw.getLsbD 4 = false)) :
    (h.answerButtons p).slotsCm = h.slotsCm ∧ (h.answerButtons p).slotsM = h.slotsM ∧
      (h.answerButtons p).highest = h.highest ∧ (h.answerButtons p).lowest = h.lowest := by
  cases hfirst : pressed p h.btn 0 <;> cases hsecond : pressed p h.btn 1
  case false.false | true.true => simp [answerButtons_poll (hfirst.trans hsecond.symm), toIdle]
  case true.false =>
    cases hload : h.sw.getLsbD 4 with
    | false => simp [answerButtons_capture hfirst hsecond hload]
    | true => simp [answerButtons_showSlots hfirst hsecond hload]
  case false.true =>
    cases hload : h.sw.getLsbD 4 with
    | false => exact absurd ⟨hfirst, hsecond, hload⟩ hother
    | true => simp [answerButtons_showExtrema hfirst hsecond hload]

end HostState

/-! ### The sequence of LoadShowSlots -/

/-- The entries of one slot (R186). -/
def HostState.slotEntries (h : HostState) (k : Fin 5) : List Shown :=
  if h.sw.getLsbD (5 + k.val) then
    [.label (slotLabel k), .stored (if h.sw.getLsbD 1 then h.slotsM[k] else h.slotsCm[k])]
  else []

/-- A slot of the current unit mode. -/
theorem HostState.getElem_slots_unitMode (h : HostState) (k : Fin 5) :
    (h.slots (unitMode h.sw))[k] = if h.sw.getLsbD 1 then h.slotsM[k] else h.slotsCm[k] := by
  rw [unitMode_eq]
  split <;> rfl

theorem slotSequence_eq (h : HostState) :
    slotSequence h = .label (if h.sw.getLsbD 1 then .m else .cm) ::
      (h.slotEntries 0 ++ h.slotEntries 1 ++ h.slotEntries 2 ++ h.slotEntries 3 ++ h.slotEntries 4) := by
  have hlabel : unitLabel (unitMode h.sw) = if h.sw.getLsbD 1 then .m else .cm := by
    rw [unitMode_eq]
    split <;> rfl
  simp only [slotSequence, hlabel, slotSelected_eq, HostState.getElem_slots_unitMode]
  simp [List.finRange_succ, HostState.slotEntries]

/-- Settles O43: the second read completes the levels and keeps the memory, and each clause is one way out of Idle. -/
theorem hostDispatchesOneButton : Obligations.HostDispatchesOneButton := by
  intro p h bf data hd sw btn down meters reply slotEntry
  let h1 := h.keepRead (!bf) data
  have hreply : reply = h1.answerButtons p := hostReply_idling_second hd data
  have hsw : h1.sw = sw := by cases bf <;> simp [h1, sw, HostState.keepRead_eq]
  have hbtn : h1.btn = btn := by cases bf <;> simp [h1, btn, HostState.keepRead_eq]
  obtain ⟨hcm, hm, hhighest, hlowest⟩ :
      h1.slotsCm = h.slotsCm ∧ h1.slotsM = h.slotsM ∧ h1.highest = h.highest ∧ h1.lowest = h.lowest :=
    h.keepRead_memory (!bf) data
  have hdown (i : Nat) : down i = pressed p h1.btn i := by rw [hbtn]; rfl
  have hentry (k : Fin 5) : slotEntry k (slotLabel k) = h1.slotEntries k := by
    simp only [slotEntry, meters, HostState.slotEntries, hsw, hcm, hm]
  have hmeters : h1.sw.getLsbD 1 = meters := by rw [hsw]
  simp only [hdown, ← hsw, ← hbtn, hreply]
  refine ⟨?_, h1.answerButtons_sw p, h1.answerButtons_btn p, fun hsame => ?_, fun hfirst hsecond hload => ?_,
    fun hfirst hsecond hload => ?_, fun hother => ?_, fun hfirst hsecond hload => ?_,
    fun hfirst hsecond hload => ?_⟩
  · cases bf <;> simp [hostCommand, hd, idleReadsButtons]
  · exact ⟨_, congrArg HostState.doing (HostState.answerButtons_poll hsame)⟩
  · rw [HostState.answerButtons_capture hfirst hsecond hload]
  · simp only [HostState.answerButtons_reset hfirst hsecond hload]
    refine ⟨trivial, rfl, rfl, fun k => ⟨?_, ?_⟩⟩
    · simpa only [unitMode_eq_cm_iff, hmeters, HostState.slots, hcm, sentinel] using h1.getElem_slots_saveReset p .cm k
    · simpa only [unitMode_eq_m_iff, hmeters, HostState.slots, hm, sentinel] using h1.getElem_slots_saveReset p .m k
  · rw [← hcm, ← hm, ← hhighest, ← hlowest]
    exact HostState.answerButtons_memory hother
  · rw [HostState.answerButtons_showSlots hfirst hsecond hload, slotSequence_eq]
    simp only [← hentry, hmeters]
    rfl
  · rw [HostState.answerButtons_showExtrema hfirst hsecond hload, ← hhighest, ← hlowest]
    rfl

end Sys2Proof.Machine
end

section
/-!
PROOFS. Exceptional events: no tick stops the machine, and a rejected word sets CERR, responds `{1, 0}` and does nothing
else (R200, R206).
-/
namespace Sys2Proof.Machine

/-- Settles O6: a reset tick answers the reset registers, any other tick what its action of the sequencer leaves. -/
theorem everyTickAnswersANextState : Obligations.EveryTickAnswersANextState := by
  intro s
  cases hrst : s.lines.rst with
  | true => exact ⟨_, step_reset hrst⟩
  | false =>
    obtain ⟨u, -, hstep⟩ := step_sequencerTick hrst
    exact ⟨_, hstep⟩

/-! ### Rejected words -/

/-- Only LIT and DLY have arguments that R75 forbids, and their meanings reject them (R205 (3)). -/
theorem exec_of_not_wf {i : Instr} (h : i.wf = false) (s : State) : exec i s = .next s.rejected := by
  cases i with
  | lit a =>
    have hindex : ¬ a.toNat ≤ 10 := fun hle => Bool.eq_false_iff.mp h ((literalIndexLegal_iff a).mpr hle)
    rw [exec_lit, if_neg hindex]
  | dly a =>
    have hlong : ¬ 50000000 * a.toNat < 2 ^ 32 := fun hlt => Bool.eq_false_iff.mp h ((delayLegal_iff a).mpr hlt)
    rw [exec_dly, if_neg hlong]
  | _ => cases h

/-- A taken illegal word is rejected by the decoder or by its operation's meaning, with one effect (R205, R206). -/
theorem step_of_illegalCommand {s : State} {w : CmdWord} (h : s.takesWord w) (hillegal : IllegalCommand w) :
    step s = .next s.rejected.advance := by
  cases hdecode : decode w with
  | error e => exact step_of_takesWord_error h hdecode
  | ok i =>
    have hwf : i.wf = false := (illegalCommand_encode_iff i).mp (encode_of_decode hdecode ▸ hillegal)
    rw [step_of_takesWord h hdecode, exec_of_not_wf hwf]
    rfl

namespace SequencerTick

variable {s u : State}

/-- A visible error response is a rejected word's (R35, R206). -/
theorem error_writer (h : SequencerTick s u) (hvisible : u.rspv = true) (herr : u.rspErr = true) :
    s.accepts = true ∧ IllegalCommand s.lines.cmd := by
  cases h with
  | reject _ accepted illegal => exact ⟨accepted, illegal⟩
  | wait | meas | dly | quietEnd | triggerEnd | rise => exact absurd hvisible Bool.false_ne_true
  | answer | conv | outTrig | outLed | outHex | fall | delayEnd =>
    exact absurd ((responseWord_err false _).symm.trans herr) Bool.false_ne_true

/-- CERR is sticky: no action of the sequencer clears it (R27). -/
theorem keeps_cerr (h : SequencerTick s u) (hset : s.cerr = true) : u.cerr = true := by
  cases h with
  | reject => rfl
  | _ => exact hset

end SequencerTick

/-- A taken legal word neither sets CERR nor shows an error (R206). -/
theorem step_of_legalCommand {s : State} {w : CmdWord} (h : s.takesWord w) (hlegal : ¬ IllegalCommand w) :
    ∃ t, step s = .next t ∧ t.cerr = s.cerr ∧ (t.rspv = true → t.rspErr = false) := by
  obtain ⟨hrst, -, rfl, -⟩ := h
  obtain ⟨u, htick, hstep⟩ := step_sequencerTick hrst
  refine ⟨_, hstep, ?_, fun hvisible => ?_⟩
  · by_contra hset
    exact hlegal (htick.cerr_writer hset).2
  · by_contra herr
    exact hlegal (htick.error_writer hvisible (Bool.eq_true_of_not_eq_false herr)).2

/-- Settles O9: illegal words, legal words, and the ticks that keep CERR. -/
theorem illegalCommandsSetOnlyCerr : Obligations.IllegalCommandsSetOnlyCerr := by
  refine ⟨fun s w => step_of_illegalCommand, fun s w => step_of_legalCommand, fun s hrst hset => ?_⟩
  obtain ⟨u, htick, hstep⟩ := step_sequencerTick hrst
  exact ⟨_, hstep, htick.keeps_cerr hset⟩

end Sys2Proof.Machine
end

section
/-!
PROOFS. Reset: it sets every register, abandons what was in progress, and leaves the host its slots and extrema (R43,
R220 to R222).
-/
namespace Sys2Proof.Machine

/-! ### The tick of reset -/

/-- CMD_READY in the two conditions of R35 and R220. -/
theorem State.cmdReady_iff (s : State) : s.cmdReady = true ↔ s.phase = .ready ∧ s.lines.rst = false := by
  simp [State.cmdReady]

theorem State.cmdReady_of_reset {s : State} (hrst : s.lines.rst = true) : s.cmdReady = false := by
  simp [State.cmdReady, hrst]

/-- A block in reset accepts no operation (R220). -/
theorem State.acceptedInstr_of_reset {s : State} (hrst : s.lines.rst = true) : s.acceptedInstr = none := by
  simp [State.acceptedInstr, State.accepts, State.cmdReady_of_reset hrst]

/-- The levels move on by one tick in a tick of reset too (R220). -/
theorem State.linesAt_resetTick (s : State) (k : Nat) : s.resetTick.linesAt k = s.linesAt (k + 1) := by
  rw [State.resetTick, State.linesAt_drawLines]
  exact State.linesAt_congr rfl rfl rfl _

/-- Settles O20: the tick's next state is made of the reset registers, READY among them. -/
theorem resetTickSetsEveryRegister : Obligations.ResetTickSetsEveryRegister := by
  intro s hrst
  refine ⟨State.cmdReady_of_reset hrst, State.acceptedInstr_of_reset hrst, _, step_reset hrst, rfl, rfl, rfl, rfl, rfl,
    rfl, rfl, rfl, rfl, rfl, rfl, rfl, rfl, rfl, fun hlow => ?_⟩
  exact s.resetTick.cmdReady_iff.mpr ⟨rfl, hlow⟩

/-! ### The ticks after it -/

/-- Nothing is in progress, no response is visible and TRIG is low. -/
structure State.AtRest (s : State) : Prop where
  ready : s.phase = .ready
  silent : s.rspv = false
  trigLow : s.trig = false

theorem State.atRest_resetTick (s : State) : s.resetTick.AtRest := ⟨rfl, rfl, rfl⟩

/-- A block at rest stays at rest in a tick without a command, whether that tick is one of reset or not (R35, R220). -/
theorem State.AtRest.next_tick {s : State} (h : s.AtRest) (hvalid : s.lines.cmdValid = false) :
    ∃ t, step s = .next t ∧ t.AtRest ∧ ∀ k, t.linesAt k = s.linesAt (k + 1) := by
  cases hrst : s.lines.rst with
  | true => exact ⟨_, step_reset hrst, s.atRest_resetTick, s.linesAt_resetTick⟩
  | false =>
    have haccepts : s.accepts = false := by simp [State.accepts, hvalid]
    refine ⟨_, step_of_phase hrst haccepts, ?_, s.linesAt_phaseTick_advance⟩
    rw [State.phaseTick_of_ready h.ready]
    exact ⟨h.ready, rfl, h.trigLow⟩

/-- A block at rest stays at rest over `n` ticks without a command. -/
theorem State.AtRest.exists_runTicks {s : State} {n : Nat} (h : s.AtRest)
    (hvalid : ∀ k, k < n → (s.linesAt k).cmdValid = false) : ∃ t, runTicks n s = .next t ∧ t.AtRest := by
  induction n generalizing s with
  | zero => exact ⟨s, rfl, h⟩
  | succ n ih =>
    obtain ⟨t, hstep, hrest, hlines⟩ := h.next_tick (hvalid 0 (by omega))
    rw [runTicks_of_step hstep]
    exact ih hrest fun k hk => hlines k ▸ hvalid (k + 1) (by omega)

/-- Settles O22: the reset tick leaves the block at rest, and without a command it stays so. -/
theorem resetAbandonsTheCommand : Obligations.ResetAbandonsTheCommand := by
  intro s n hrst hvalid hpos
  obtain ⟨m, rfl⟩ := Nat.exists_eq_succ_of_ne_zero hpos.ne'
  obtain ⟨t, hrun, ht⟩ := s.atRest_resetTick.exists_runTicks (n := m) fun k hk => by
    rw [State.linesAt_resetTick]
    exact hvalid (k + 1) (by omega) (by omega)
  exact ⟨t, (runTicks_of_step (step_reset hrst) m).trans hrun, ht.silent, ht.trigLow, ht.ready⟩

/-! ### The host in a tick of reset -/

/-- The end of a tick touches neither slots nor extrema (R221). -/
theorem HostState.endTick_memory (h : HostState) (s : State) :
    (h.endTick s).slotsCm = h.slotsCm ∧ (h.endTick s).slotsM = h.slotsM ∧
      (h.endTick s).highest = h.highest ∧ (h.endTick s).lowest = h.lowest := by
  unfold HostState.endTick
  split_ifs <;> exact ⟨rfl, rfl, rfl, rfl⟩

/-- The system's tick of reset: the block's registers are reset whatever the host presents, and the host ends its
tick (R220). -/
theorem system_step_of_reset (p : HostParams) {y : System} (hrst : y.block.lines.rst = true) :
    y.step p = .next
      { block := (y.block.driven (y.takeResponse p)).resetTick
        host := (y.takeResponse p).endTick (y.block.driven (y.takeResponse p)) } := by
  have hblock : (y.block.driven (y.takeResponse p)).lines.rst = true := hrst
  rw [System.step, step_reset hblock]

/-- Settles O51: the end of the reset tick keeps the host's memory and ends its wait. -/
theorem blockResetLeavesTheHostsMemory : Obligations.BlockResetLeavesTheHostsMemory := by
  intro p y hrst
  obtain ⟨hcm, hm, hhighest, hlowest⟩ :=
    (y.takeResponse p).endTick_memory (y.block.driven (y.takeResponse p))
  exact ⟨_, system_step_of_reset p hrst, hcm, hm, hhighest, hlowest, HostState.endTick_waiting_of_reset hrst⟩

end Sys2Proof.Machine
end
